-- ==== Sys2Proof/Word.lean ====
section
/-! DEFINITION. The words of the block: bytes, 24-bit device addresses and the opaque transport handle. -/

namespace Sys2Proof

/-- A byte, an unsigned value 0 to 255 (R6). -/
abbrev Byte := BitVec 8

/-- A device address: a 24-bit unsigned offset into the device's byte space (R12, R50). -/
abbrev Addr := BitVec 24

/-- A frame or a response: index 0 is the first byte handed to the transport (R7). -/
abbrev Bytes := List Byte

/-- The transport handle: opaque, carried and passed on, never looked at (R22, R31).
DESIGN CHOICE (log 5): it is a token compared for equality only. -/
structure Handle where
  token : Nat
  deriving DecidableEq, Repr, Inhabited

end Sys2Proof
end

