-- ==== Sys2Proof/Config.lean ====
section
/-! DEFINITION. The constants of R5, the parameters an instance of the block is built with, and the free values. -/

namespace Sys2Proof

/-- The parameters of R5 that are fixed when the block is instantiated (R27).
They are no state of the block; State carries them because a step has no other argument (log 4). -/
structure Config where
  /-- `ROW_BITS`: low address bits that are the offset inside a row; 8 unless overridden. -/
  rowBits : Nat
  /-- `MAX_READ`: largest count of one READ; at least `MAX_WRITE`. -/
  maxRead : Nat
  /-- `POLL_MAX`: `none` is the unbounded loop, `some n` at most `n` polls (`n ≥ 1`). -/
  pollMax : Option Nat
  deriving DecidableEq, Repr, Inhabited

namespace Config

/-- `MAX_WRITE` (R5). -/
def maxWrite : Nat := 256

/-- `HDR_BYTES` (R5): opcode and address; also the leading response bytes READ discards. -/
def hdrBytes : Nat := 4

/-- The number of addresses of the device byte space, `2 ^ ADDR_W` (R5, R50). -/
def addrSpace : Nat := 16777216

/-- `BUSY` (R5). -/
def busy : Byte := 0xFF

/-- `IDLE` (R5). -/
def idle : Byte := 0x00

/-- `DUMMY` (R5): the second byte of the RDSR and LPWP frames. -/
def dummy : Byte := 0x00

/-- `PAD` (R5, R84): the bytes a READ frame carries after the address. -/
def pad : Byte := 0x00

/-- The poison byte of the reference stub (R71). -/
def poison : Byte := 0xA5

def opWrsr : Byte := 0x01
def opWrite : Byte := 0x02
def opRead : Byte := 0x03
def opWrdi : Byte := 0x04
def opRdsr : Byte := 0x05
def opWren : Byte := 0x06
def opLpwp : Byte := 0x08

/-- The reference values of R5: `ROW_BITS = 8`, `MAX_READ = 256`, `POLL_MAX = none`. -/
def reference : Config := { rowBits := 8, maxRead := 256, pollMax := none }

/-- The two side conditions R5 puts on the open parameters. -/
def wf (c : Config) : Bool :=
  decide (maxWrite ≤ c.maxRead) && decide (c.pollMax ≠ some 0)

/-! The free values. None has a body: no proof can see a value of one. The first argument is a counter of State. -/

/-- The `ok` bit of an answer of the unconstrained transport (R69), by the number of earlier calls. -/
opaque freeOk : Nat → Bool

/-- Byte `i` of an answer of the unconstrained transport (R69, U1, U2). -/
opaque freeRxByte : Nat → Nat → Byte

/-- The write-enable latch where the source does not say what it is (U3, U4, N11). -/
opaque freeLatch : Nat → Bool

/-- The remaining busy time where the source does not say what it is (N9, N11, R160). -/
opaque freeBusy : Nat → Nat

/-- Byte `i` of the addressed range where the source does not say what a data frame left there (U13, N11). -/
opaque freeMemByte : Nat → Nat → Byte

/-- Registers after the reset input acted: R33 leaves them unspecified. By the number of earlier resets. -/
opaque resetSelector : Nat → Nat
opaque resetHandle : Nat → Handle
opaque resetAddr : Nat → Addr
opaque resetLen : Nat → Nat
opaque resetVerify : Nat → Bool
opaque resetByte : Nat → Nat → Byte
opaque resetFrameLen : Nat → Nat
opaque resetPollCount : Nat → Nat

end Config

end Sys2Proof
end

