-- ==== Sys2Proof/Syntax.lean ====
section
/-! DEFINITION. The instruction set: seven wire commands (R81), six host operations and two illegal selectors (R88). -/

namespace Sys2Proof

/-- The six host operations (R88), the values of the latch `op_sel` (R22). -/
inductive HostOp where
  | read | write | rdsr | wren | wrdi | poll
  deriving DecidableEq, Repr, Inhabited

/-- The code of a host operation on `req_op` (R88). -/
def HostOp.code : HostOp → Nat
  | .read => 0
  | .write => 1
  | .rdsr => 2
  | .wren => 3
  | .wrdi => 4
  | .poll => 5

/-- The record on the request port (R88). It is a record, not a byte string. -/
structure Request where
  op : BitVec 3
  h : Handle
  addr : Addr
  len : Nat
  verify : Bool
  data : Bytes
  deriving DecidableEq, Repr, Inhabited

/-- One constructor per row of the opcode table.
A `wire…` constructor is a frame the block puts on the transport in one step.
A `host…` constructor is a request the host makes. -/
inductive Instr where
  /-- Wire 0x01, `[op]` (R134): in the table, never sent. -/
  | wireWrsr
  /-- Wire 0x02, `[op, a0, a1, a2, data…]` (R114). -/
  | wireWrite (addr : Addr) (data : Bytes)
  /-- Wire 0x03, `[op, a0, a1, a2, pad×N]` (R111). -/
  | wireRead (addr : Addr) (count : Nat)
  /-- Wire 0x04, `[op]` (R132). -/
  | wireWrdi
  /-- Wire 0x05, `[op, 0x00]` (R130). -/
  | wireRdsr
  /-- Wire 0x06, `[op]` (R131). -/
  | wireWren
  /-- Wire 0x08, `[op, 0x00]` (R133). -/
  | wireLpwp
  /-- Selector 0 (R111). -/
  | hostRead (h : Handle) (addr : Addr) (count : Nat)
  /-- Selector 1 (R151). -/
  | hostWrite (h : Handle) (addr : Addr) (data : Bytes) (verify : Bool)
  /-- Selector 2 (R130). -/
  | hostRdsr (h : Handle)
  /-- Selector 3 (R131). -/
  | hostWren (h : Handle)
  /-- Selector 4 (R132). -/
  | hostWrdi (h : Handle)
  /-- Selector 5 (R133). -/
  | hostPoll (h : Handle)
  /-- Selector 6 (R186). -/
  | illegal6
  /-- Selector 7 (R186). -/
  | illegal7
  deriving DecidableEq, Repr

/-- An instruction as it stands at one of the two places where it is encoded: a frame on the wire (R80) or a
record on the request port (R88). -/
inductive Encoding where
  | frame (f : Bytes)
  | request (r : Request)
  deriving DecidableEq, Repr

end Sys2Proof
end

