-- ==== Sys2Proof/WellFormed.lean ====
section
/-! DEFINITION. Which instructions have an encoding: the legal lengths of the opcode map (R83, R90). -/

namespace Sys2Proof

/-- A data frame carries 1 to 256 bytes and a READ frame 1 to `MAX_READ` (R83, R90).
Every request is well formed: a length that is out of bounds is answered `BoundsError`, not unencodable (R88, R182). -/
def Instr.wf (c : Config) : Instr → Bool
  | .wireWrite _ d => decide (1 ≤ d.length) && decide (d.length ≤ Config.maxWrite)
  | .wireRead _ n => decide (1 ≤ n) && decide (n ≤ c.maxRead)
  | .wireWrsr => true
  | .wireWrdi => true
  | .wireRdsr => true
  | .wireWren => true
  | .wireLpwp => true
  | .hostRead _ _ _ => true
  | .hostWrite _ _ _ _ => true
  | .hostRdsr _ => true
  | .hostWren _ => true
  | .hostWrdi _ => true
  | .hostPoll _ => true
  | .illegal6 => true
  | .illegal7 => true

end Sys2Proof
end

