-- ==== Sys2Proof/Decode.lean ====
section
/-! DEFINITION. The frames (R80 to R84), the decoder of frames (R90, R91) and of requests (R88), and the encoder. -/

namespace Sys2Proof

/-- Why an encoding has no instruction. -/
inductive DecodeError where
  /-- A frame of no bytes has no opcode byte (R80). -/
  | emptyFrame
  /-- Byte 0 is not in the command set (R87, R90). -/
  | unknownOpcode
  /-- The length is not legal for the command (R90). -/
  | badLength
  /-- The second byte of an RDSR or LPWP frame is not 0x00 (R90). -/
  | badDummy
  /-- `req_data` of a WRITE request is not `req_len` bytes (R88). -/
  | payloadLength
  deriving DecidableEq, Repr

/-! ### Frames -/

/-- `A[8*k+7 : 8*k]`, byte `k` of an address (R6, R82). -/
def addrByte (a : Addr) (k : Nat) : Byte := BitVec.ofNat 8 (a.toNat / 256 ^ k)

/-- `ENCADDR` (R110): opcode, then the address least significant byte first (R51). -/
def encAddr (op : Byte) (a : Addr) : Bytes := [op, addrByte a 0, addrByte a 1, addrByte a 2]

/-- `A = a0 + 256*a1 + 65536*a2` (R82), as a number. -/
def joinAddrNat (a0 a1 a2 : Byte) : Nat := a0.toNat + 256 * a1.toNat + 65536 * a2.toNat

/-- `A = a0 + 256*a1 + 65536*a2` (R82). -/
def joinAddr (a0 a1 a2 : Byte) : Addr := BitVec.ofNat 24 (joinAddrNat a0 a1 a2)

/-- WRSR, format F1: an opcode of the table that the block never sends (R134). -/
def wrsrFrame : Bytes := [Config.opWrsr]
/-- WREN, format F1 (R131). -/
def wrenFrame : Bytes := [Config.opWren]
/-- WRDI, format F1 (R132). -/
def wrdiFrame : Bytes := [Config.opWrdi]
/-- RDSR, format F2 (R130). -/
def rdsrFrame : Bytes := [Config.opRdsr, Config.dummy]
/-- LPWP, format F2 (R133). -/
def lpwpFrame : Bytes := [Config.opLpwp, Config.dummy]
/-- The data frame of a write, format FA (R114). -/
def dataFrame (a : Addr) (d : Bytes) : Bytes := encAddr Config.opWrite a ++ d
/-- The READ frame, format FA with `N` pad bytes (R111, R84). -/
def readFrame (a : Addr) (n : Nat) : Bytes := encAddr Config.opRead a ++ List.replicate n Config.pad

/-! ### Decoding a frame -/

def decodeBare (i : Instr) (rest : Bytes) : Except DecodeError Instr :=
  match rest with
  | [] => .ok i
  | _ => .error .badLength

def decodeDummy (i : Instr) (rest : Bytes) : Except DecodeError Instr :=
  match rest with
  | [b] => if b = Config.dummy then .ok i else .error .badDummy
  | _ => .error .badLength

def decodeWriteFrame (rest : Bytes) : Except DecodeError Instr :=
  match rest with
  | a0 :: a1 :: a2 :: d =>
    if 1 ≤ d.length ∧ d.length ≤ Config.maxWrite then .ok (.wireWrite (joinAddr a0 a1 a2) d)
    else .error .badLength
  | _ => .error .badLength

/-- The pad bytes are not looked at: the opcode map keys on byte 0 and the length (R90, U15; log 15). -/
def decodeReadFrame (c : Config) (rest : Bytes) : Except DecodeError Instr :=
  match rest with
  | a0 :: a1 :: a2 :: d =>
    if 1 ≤ d.length ∧ d.length ≤ c.maxRead then .ok (.wireRead (joinAddr a0 a1 a2) d.length)
    else .error .badLength
  | _ => .error .badLength

/-- The opcode map in full (R90). -/
def decodeFrame (c : Config) (f : Bytes) : Except DecodeError Instr :=
  match f with
  | [] => .error .emptyFrame
  | op :: rest =>
    if op = Config.opWrsr then decodeBare .wireWrsr rest
    else if op = Config.opWrite then decodeWriteFrame rest
    else if op = Config.opRead then decodeReadFrame c rest
    else if op = Config.opWrdi then decodeBare .wireWrdi rest
    else if op = Config.opRdsr then decodeDummy .wireRdsr rest
    else if op = Config.opWren then decodeBare .wireWren rest
    else if op = Config.opLpwp then decodeDummy .wireLpwp rest
    else .error .unknownOpcode

/-! ### Decoding a request -/

/-- The selector table of R88; fields an operation does not use are ignored. -/
def decodeRequest (r : Request) : Except DecodeError Instr :=
  match r.op.toNat with
  | 0 => .ok (.hostRead r.h r.addr r.len)
  | 1 => if r.data.length = r.len then .ok (.hostWrite r.h r.addr r.data r.verify) else .error .payloadLength
  | 2 => .ok (.hostRdsr r.h)
  | 3 => .ok (.hostWren r.h)
  | 4 => .ok (.hostWrdi r.h)
  | 5 => .ok (.hostPoll r.h)
  | 6 => .ok .illegal6
  | _ => .ok .illegal7

/-- Decoding at either place. -/
def decode (c : Config) : Encoding → Except DecodeError Instr
  | .frame f => decodeFrame c f
  | .request r => decodeRequest r

/-! ### Encoding -/

/-- A request whose unused fields are zero. -/
def bareRequest (op : BitVec 3) (h : Handle) : Request :=
  { op := op, h := h, addr := 0, len := 0, verify := false, data := [] }

/-- The words of an instruction (R80, R81, R88). -/
def encode : Instr → Encoding
  | .wireWrsr => .frame wrsrFrame
  | .wireWrite a d => .frame (dataFrame a d)
  | .wireRead a n => .frame (readFrame a n)
  | .wireWrdi => .frame wrdiFrame
  | .wireRdsr => .frame rdsrFrame
  | .wireWren => .frame wrenFrame
  | .wireLpwp => .frame lpwpFrame
  | .hostRead h a n => .request { bareRequest 0 h with addr := a, len := n }
  | .hostWrite h a d v => .request { op := 1, h := h, addr := a, len := d.length, verify := v, data := d }
  | .hostRdsr h => .request (bareRequest 2 h)
  | .hostWren h => .request (bareRequest 3 h)
  | .hostWrdi h => .request (bareRequest 4 h)
  | .hostPoll h => .request (bareRequest 5 h)
  | .illegal6 => .request (bareRequest 6 ⟨0⟩)
  | .illegal7 => .request (bareRequest 7 ⟨0⟩)

/-! ### The opcode table's numbering -/

/-- The `n` bytes of a number, byte `k` holding bits `8*k+7 : 8*k` (R8). -/
def bytesOfNat (n w : Nat) : Bytes := (List.range n).map fun k => BitVec.ofNat 8 (w / 256 ^ k)

/-- The instruction read from `nbits` bits `w`, numbered as the opcode table numbers them.
The table gives its two levels the same numbers; a word of one byte is read as a selector, because requests are what
the block receives (R66, R87), and a longer word as a frame, at the reference parameters (log 7). -/
def decodeTableWord (nbits w : Nat) : Option Instr :=
  if nbits ≤ 8 then
    if w < 8 then (decodeRequest (bareRequest (BitVec.ofNat 3 w) ⟨0⟩)).toOption else none
  else if w < 2 ^ nbits then (decodeFrame Config.reference (bytesOfNat ((nbits + 7) / 8) w)).toOption
  else none

end Sys2Proof
end

