-- ==== Sys2Proof/Machine/State.lean ====
section
/-! DEFINITION. The state: the block's registers (R20 to R27), its two ports, the transport and the device behind it
(R28 to R32, R68 to R78), the reasons a step can stop, and reset (R33, R210). -/

namespace Sys2Proof.Machine

/-- The sequencer state register (R21). -/
inductive SeqState where
  | idle | latchEnabled | dataSent | polling | verifying | done
  deriving DecidableEq, Repr, Inhabited

/-- The 3-bit code of a sequencer state (R21). -/
def SeqState.code : SeqState → Nat
  | .idle => 0
  | .latchEnabled => 1
  | .dataSent => 2
  | .polling => 3
  | .verifying => 4
  | .done => 5

/-- The result kinds other than `Success` (R180). -/
inductive ErrorKind where
  | transportError | boundsError | protocolError | verificationError | timeout | illegalRequest
  deriving DecidableEq, Repr

/-- The data output of a successful operation: nothing, `rsp_byte` or `rsp_data` (R26). -/
inductive Output where
  | nothing
  | byte (b : Byte)
  | data (d : Bytes)
  deriving DecidableEq, Repr

/-- The response registers (R26): a data output exists exactly when the result is `Success`. -/
inductive Response where
  | success (out : Output)
  | failure (k : ErrorKind)
  deriving DecidableEq, Repr

/-- The code of the result kind of a response, `rsp_result` (R180). -/
def Response.code : Response → Nat
  | .success _ => 0
  | .failure .transportError => 1
  | .failure .boundsError => 2
  | .failure .protocolError => 3
  | .failure .verificationError => 4
  | .failure .timeout => 5
  | .failure .illegalRequest => 6

/-- The registers of the block. -/
structure Block where
  /-- `seq_state` (R21). -/
  seq : SeqState
  /-- `op_sel` (R22). -/
  opSel : HostOp
  /-- `op_h` (R22, R31). -/
  opH : Handle
  /-- `op_addr` (R22). -/
  opAddr : Addr
  /-- `op_len` (R22). -/
  opLen : Nat
  /-- `op_verify` (R22). -/
  opVerify : Bool
  /-- `pbuf[0 .. 255]` (R23). -/
  pbuf : Bytes
  /-- `txbuf` (R24): the frame of the last `Xfer`. -/
  txbuf : Bytes
  /-- `rxbuf` (R24): the response of the last `Xfer`. -/
  rxbuf : Bytes
  /-- `poll_count` (R25): counts only if `POLL_MAX` is set. -/
  pollCount : Nat
  /-- `rsp_result` with `rsp_byte` or `rsp_data` (R26); `none` is "no response pending". -/
  rsp : Option Response
  deriving DecidableEq, Repr

/-- The host's side of the request and response ports (R11, R66, R222; log 6), and the reset input (R211; log 13). -/
structure HostPort where
  /-- The requests the host makes, oldest first; the head stands on the request port (R66, R89). -/
  requests : List Request
  /-- The responses the host has taken, oldest first (R222). -/
  received : List Response
  /-- The reset input: when set, the next step resets the block (R210, R211). -/
  resetLine : Bool
  /-- MODEL'S OWN (log 12): how often the reset input acted; index of the values reset leaves unspecified. -/
  resets : Nat
  deriving DecidableEq, Repr

/-- One answer of the transport, `(ok, rx)` of `Xfer` (R10, R68). -/
structure Answer where
  ok : Bool
  rx : Bytes
  deriving DecidableEq, Repr

/-- One call of the transport, `Xfer(h, tx)` (R10, R68). -/
structure Call where
  h : Handle
  tx : Bytes
  deriving DecidableEq, Repr

/-- Which transport stands at the block's port. -/
inductive TransportKind where
  /-- The unconstrained transport (R69). -/
  | unconstrained
  /-- The reference device stub (R70 to R78). -/
  | stub
  deriving DecidableEq, Repr

/-- Memory: address and byte pairs, addresses strictly rising, none equal to what an unlisted address reads as (log 23). -/
abbrev Memory := List Host.Cell

/-- A data frame that was transferred (R114), as the account of the device keeps it. MODEL'S OWN (log 9). -/
structure DataSeen where
  /-- The address it carries. -/
  addr : Nat
  /-- The payload it carries. -/
  payload : Bytes
  /-- It met an idle device whose latch was set, and so starts an internal write (R29, R30). -/
  taken : Bool
  deriving DecidableEq, Repr

/-- The device behind the transport (R28 to R30, R70). -/
structure Device where
  /-- The memory array (R28). -/
  mem : Memory
  /-- The write-enable latch (R29). -/
  wel : Bool
  /-- How much longer the device is busy (R30, R70): busy when positive. Behind the unconstrained transport the device
  counts as busy until a poll shows that it is not (log 9). -/
  busyLeft : Nat
  /-- The last data frame, if it was transferred and the content it leaves is not settled otherwise. MODEL'S OWN (log 9). Used
  behind the unconstrained transport; the stub stores at once (R76). -/
  lastData : Option DataSeen
  /-- A WREN or a data frame has met the device while it counted as busy. Whether the internal write was over by then is not
  known, so neither is the latch once it is over (N11); nor is it after a `ProtocolError`, which leaves the device unknown
  (R160). MODEL'S OWN (log 9, log 24). Used behind the unconstrained transport. -/
  latchOpen : Bool
  deriving DecidableEq, Repr

/-- The parameters of the environment and the scripts of the reference stub. -/
structure StubSetup where
  /-- `DEV_SIZE` (R5, R59), for the device behind the unconstrained transport; the stub's is `2^24` (R70). -/
  devSize : Nat
  /-- `BUSY_POLLS` (R70). -/
  busyPolls : Nat
  /-- `fail_at` (R70): numbers of the calls that fail. -/
  failAt : List Nat
  /-- The variant `poll_script` (R78): the bytes still to be answered. -/
  pollScript : Option Bytes
  /-- The variant `corrupt(a, b)` (R78). -/
  corrupt : Option (Addr × Byte)
  deriving DecidableEq, Repr

/-- The transport with the device behind it (R11, R196). -/
structure Env where
  transport : TransportKind
  /-- The answers the unconstrained transport will give next (R163); past its end they are free values (R69; log 8). -/
  answers : List Answer
  /-- `calls` (R70): the number of `Xfer` calls made. -/
  calls : Nat
  /-- `log` (R70): the calls made, oldest first. -/
  log : List Call
  dev : Device
  setup : StubSetup
  deriving DecidableEq, Repr

/-- Everything the spec gives the machine. -/
structure State where
  cfg : Config
  blk : Block
  host : HostPort
  env : Env
  deriving DecidableEq, Repr

/-- Why the machine stops. -/
inductive Fault where
  /-- The record on the request port is no request: `req_data` is not `req_len` bytes (R88).
  Raised by fetching a request. Safe: the spec gives such a record no meaning (log 18). -/
  | malformedRequest
  deriving DecidableEq, Repr

/-- Why an instruction has no meaning here. -/
inductive Refusal where
  /-- The instruction is not modelled yet; raised in `exec` only. Safe. -/
  | notModelled (mnemonic : String)
  /-- WRSR: the block never builds this frame, and the source gives it no effect (R134, R87, U11).
  Raised by its meaning. Safe: no step of the machine runs it (log 16). -/
  | wrsrNeverSent
  /-- The block sends no such frame from the sequencer state it is in: no arrow of R150 and no operation of `Idle`
  does. Only another user of the transport could, which the model has not (U6).
  Raised by the meanings of the wire commands. Safe: no step of the machine reaches it (log 17). -/
  | frameNotSentHere
  deriving DecidableEq, Repr

/-- The registers after reset: `Idle` and no response pending (R33, R210); the others are unspecified and
hold zero here (DESIGN CHOICE, log 1). -/
def Block.reset : Block :=
  { seq := .idle, opSel := .read, opH := ⟨0⟩, opAddr := 0, opLen := 0, opVerify := false,
    pbuf := List.replicate Config.maxWrite 0, txbuf := [], rxbuf := [], pollCount := 0, rsp := none }

/-- No request made, no response taken, reset not asserted. -/
def HostPort.reset : HostPort := { requests := [], received := [], resetLine := false, resets := 0 }

/-- The device at power-up: not in the source (N10, N11); empty, latch clear, idle (DESIGN CHOICE, log 2). -/
def Device.reset : Device := { mem := [], wel := false, busyLeft := 0, lastData := none, latchOpen := false }

/-- The stub's scripts are empty and its sizes the reference ones (R5, R70). -/
def StubSetup.reset : StubSetup :=
  { devSize := Config.addrSpace, busyPolls := 0, failAt := [], pollScript := none, corrupt := none }

/-- The unconstrained transport, with no call made (R69, R33; log 3). -/
def Env.reset : Env :=
  { transport := .unconstrained, answers := [], calls := 0, log := [], dev := Device.reset, setup := StubSetup.reset }

/-- The machine after reset (R33, R210), at the reference parameters (R5). -/
def State.reset : State :=
  { cfg := Config.reference, blk := Block.reset, host := HostPort.reset, env := Env.reset }

end Sys2Proof.Machine
end

