-- ==== Sys2Proof/Machine/Operands.lean ====
section
/-! DEFINITION. Operand arithmetic: the row of an address and the bounds check (R54, R112), and the response bytes an
operation reads (R85). -/

namespace Sys2Proof.Machine

/-- `row(a)`: `a >> ROW_BITS` on natural numbers (R54). -/
def row (c : Config) (a : Nat) : Nat := a >>> c.rowBits

/-- `WRITE_OK(A, L)` (R112); `A + L - 1` is computed without wrap-around (R113). -/
def writeOk (c : Config) (a : Addr) (l : Nat) : Bool :=
  decide (1 ≤ l) && decide (l ≤ Config.maxWrite) && decide (row c a.toNat = row c (a.toNat + l - 1))

/-- The counts READ takes: 1 to `MAX_READ` (R111). -/
def readOk (c : Config) (n : Nat) : Bool := decide (1 ≤ n) && decide (n ≤ c.maxRead)

/-- `rx[1]`, the byte RDSR and the write poll use (R85). -/
def statusByte (rx : Bytes) : Byte := rx.getD 1 0

/-- `rx[4 .. 4+n)`, the bytes a READ uses (R85). -/
def readData (n : Nat) (rx : Bytes) : Bytes := (rx.drop Config.hdrBytes).take n

/-- `rep(b, n)` (R7). -/
def rep (b : Byte) (n : Nat) : Bytes := List.replicate n b

end Sys2Proof.Machine
end

