-- ==== Sys2Proof/Machine/Flags.lean ====
section
/-! DEFINITION. The block has no flags (R27). What stands in their place is the verdict on a write-poll byte (R86) and
the bound on the polls (R25, R156). -/

namespace Sys2Proof.Machine

/-- What a write-poll byte says (R86). -/
inductive PollVerdict where
  | busy | idle | illegal
  deriving DecidableEq, Repr

/-- The comparison is of the whole byte (R86). -/
def pollVerdict (b : Byte) : PollVerdict :=
  if b = Config.idle then .idle else if b = Config.busy then .busy else .illegal

/-- `poll_count` after one more poll frame; it exists only if `POLL_MAX` is set (R25; log 20). -/
def nextPollCount (c : Config) (k : Nat) : Nat :=
  match c.pollMax with
  | none => k
  | some _ => k + 1

/-- `POLL_MAX = some n and poll_count >= n` (R156). -/
def pollBoundReached (c : Config) (k : Nat) : Bool :=
  match c.pollMax with
  | none => false
  | some n => decide (n ≤ k)

end Sys2Proof.Machine
end

