-- ==== Sys2Proof/Machine/Memory.lean ====
section
/-! DEFINITION. The device memory array as a canonical list of cells (R28, R50, R59), and its two primitives (R10). -/

namespace Sys2Proof.Machine

/-- What an address that is not listed reads as: the stub's 0x00 (R70; DESIGN CHOICE otherwise, log 2). -/
def unwritten : Byte := 0x00

/-- Strictly rising addresses from `lo` on, below the end of the address space, no cell equal to `unwritten`. -/
def Memory.wfFrom (lo : Nat) : Memory → Bool
  | [] => true
  | (k, v) :: t =>
    decide (lo ≤ k) && decide (k < Config.addrSpace) && decide (v ≠ unwritten) && Memory.wfFrom (k + 1) t

/-- The canonical form. -/
def Memory.wf (m : Memory) : Bool := Memory.wfFrom 0 m

/-- `MemRead(a, 1)` (R10). -/
def memRead : Memory → Nat → Byte
  | [], _ => unwritten
  | (k, v) :: t, a => if a = k then v else memRead t a

/-- A cell put in front, unless it reads as an unlisted address does. -/
def consCell (a : Nat) (b : Byte) (m : Memory) : Memory := if b = unwritten then m else (a, b) :: m

/-- `MemWrite(a, 1, b)` (R10), keeping the canonical form. -/
def memWrite : Memory → Nat → Byte → Memory
  | [], a, b => consCell a b []
  | (k, v) :: t, a, b =>
    if a < k then consCell a b ((k, v) :: t)
    else if a = k then consCell a b t
    else (k, v) :: memWrite t a b

/-- Where byte address `a` lands in the reference stub: `a mod 2^24` (R76, R77). -/
def stubPlace (a : Nat) : Option Nat := some (a % Config.addrSpace)

/-- Where byte address `a` lands in a device of `size` bytes, if it has that address (R59, R219; log 11). -/
def devicePlace (size a : Nat) : Option Nat :=
  if a < size ∧ a < Config.addrSpace then some a else none

/-- One byte stored where `place` puts it. -/
def storeAt (place : Nat → Option Nat) (m : Memory) (a : Nat) (b : Byte) : Memory :=
  match place a with
  | some k => memWrite m k b
  | none => m

/-- Byte `i` of a run stored at `a + i` (R52). -/
def storeRun (place : Nat → Option Nat) : Memory → Nat → Bytes → Memory
  | m, _, [] => m
  | m, a, b :: bs => storeRun place (storeAt place m a b) (a + 1) bs

/-- The `n` bytes at `a`, `a + 1`, … as the stub reads them (R53, R77). -/
def stubLoad (m : Memory) (a n : Nat) : Bytes :=
  (List.range n).map fun i => memRead m ((a + i) % Config.addrSpace)

end Sys2Proof.Machine
end

