-- ==== Sys2Proof/Machine/Device.lean ====
section
/-! DEFINITION. The transport and the device behind it: the unconstrained transport (R68, R69) with the device effects
the source names (R28 to R30, R160), and the reference stub (R70 to R78). -/

namespace Sys2Proof.Machine

/-- A frame as a receiver reads it (R91), by opcode and length (R83). -/
inductive Received where
  | wren
  | wrdi
  | rdsr
  | lpwp
  | data (a : Nat) (d : Bytes)
  | read (a : Nat) (n : Nat)
  | ignored
  deriving DecidableEq, Repr

/-- The receiver's key is `(tx[0], len(tx))` (R83); the lengths are those of R72 to R77. -/
def receive : Bytes → Received
  | [] => .ignored
  | [op] => if op = Config.opWren then .wren else if op = Config.opWrdi then .wrdi else .ignored
  | [op, _] => if op = Config.opRdsr then .rdsr else if op = Config.opLpwp then .lpwp else .ignored
  | [_, _, _] => .ignored
  | op :: a0 :: a1 :: a2 :: d =>
    if op = Config.opRead then .read (joinAddrNat a0 a1 a2) d.length
    else if op = Config.opWrite ∧ d ≠ [] then .data (joinAddrNat a0 a1 a2) d
    else .ignored

/-- The device is busy while it performs an internal write (R30, R70). -/
def Device.busy (d : Device) : Bool := decide (0 < d.busyLeft)

/-! ### The unconstrained transport -/

/-- A response is as long as the frame, whatever the transport says (R68); bytes it does not give are free (R69). -/
def fitResponse (n len : Nat) (rx : Bytes) : Bytes :=
  (List.range len).map fun i => (rx[i]?).getD (Config.freeRxByte n i)

/-- The answer of the unconstrained transport: the next of the stream, else any (R69). -/
def freeAnswer (e : Env) (len : Nat) : Answer :=
  match e.answers with
  | [] => { ok := Config.freeOk e.calls, rx := fitResponse e.calls len [] }
  | a :: _ => { ok := a.ok, rx := fitResponse e.calls len a.rx }

/-- The bytes a data frame left in the addressed range when the source does not say which (U13). -/
def freeRun (n len : Nat) : Bytes := (List.range len).map (Config.freeMemByte n)

/-- The internal write is over: the payload of a data frame that started it stands in the array (R28, R114) and the device has
cleared the latch (R29), unless a WREN or a data frame met the device meanwhile: whether it came before or after the end of
the write is not known, and the latch is a free value (N11, R215). What a data frame that did not surely start a write leaves
in its range stays free (N11). That a failed poll or a host's WREN in between leaves the payload to be stored, and that a
later data frame does not, is the model's choice (log 9). -/
def Device.completeWrite (size n : Nat) (d : Device) : Device :=
  { d with
    mem :=
      match d.lastData with
      | none => d.mem
      | some f =>
        match f.taken with
        | true => storeRun (devicePlace size) d.mem f.addr f.payload
        | false => d.mem
    wel := if d.latchOpen then Config.freeLatch n else false
    busyLeft := 0
    latchOpen := false }

/-- The poll was answered, and with `IDLE` (R86). -/
def saysIdle (a : Answer) : Bool := a.ok && decide (pollVerdict (statusByte a.rx) = .idle)

/-- What the source says a frame does to the device (R29, R30, R114), with free values where it does not
say: a failed frame (U3, U4, U13), a frame that meets a busy device or a clear latch (N11), what the addressed range
holds until the write is over (U13), how long a write lasts (N9) and when the latch clears (N11).
READ, RDSR and the poll change nothing (R58). An answer `IDLE` of a device that counts as busy shows that it has ended
its internal write by itself; every other answer, and a failed poll, leaves the account of the device as it was, so
that the payload may still come to stand. A data frame, transferred or not, takes the place of the one before it: an
earlier payload whose end no poll has shown is no longer expected, and its range keeps free bytes. Where it meets a busy
device, the latch after the next `IDLE` is a free value, as after a WREN. These are the model's choices (log 9).
`n` is the number of earlier calls. -/
def Device.afterFrame (size n : Nat) (tx : Bytes) (a : Answer) (d : Device) : Device :=
  match receive tx with
  | .wren => { d with wel := if a.ok && !d.busy then true else Config.freeLatch n, latchOpen := d.latchOpen || d.busy }
  | .wrdi =>
    { d with
      wel := if a.ok && !d.busy then false else Config.freeLatch n
      latchOpen := d.latchOpen && !(a.ok && d.busy) }
  | .data at' p =>
    let taken := a.ok && d.wel && !d.busy
    { mem := storeRun (devicePlace size) d.mem at' (freeRun n p.length)
      wel := Config.freeLatch n
      busyLeft := if taken then Config.freeBusy n + 1 else Config.freeBusy n
      lastData := if a.ok then some { addr := at', payload := p, taken := taken } else none
      latchOpen := d.busy }
  | .lpwp => if d.busy && saysIdle a then d.completeWrite size n else d
  | .rdsr => d
  | .read _ _ => d
  | .ignored => d

/-! ### The reference stub -/

/-- Call number `calls + 1` is in `fail_at` (R71). -/
def stubFails (e : Env) : Bool := decide (e.calls + 1 ∈ e.setup.failAt)

/-- The write-poll byte of the stub (R75), or of its variant `poll_script` (R78). -/
def stubPollByte (e : Env) : Byte :=
  match e.setup.pollScript with
  | none => if e.dev.busy then Config.busy else Config.idle
  | some [] => Config.idle
  | some (b :: _) => b

/-- The response of the stub (R71 to R78). -/
def stubResponse (e : Env) (tx : Bytes) : Bytes :=
  match receive tx with
  | .rdsr => [Config.poison, if e.dev.busy then Config.busy else Config.idle]
  | .lpwp => [Config.poison, stubPollByte e]
  | .read at' n =>
    rep Config.poison Config.hdrBytes ++
      (if e.dev.busy then rep Config.poison n else stubLoad e.dev.mem at' n)
  | .wren => rep Config.poison tx.length
  | .wrdi => rep Config.poison tx.length
  | .data _ _ => rep Config.poison tx.length
  | .ignored => rep Config.poison tx.length

/-- The answer of the stub (R71). -/
def stubAnswer (e : Env) (tx : Bytes) : Answer :=
  if stubFails e then { ok := false, rx := rep Config.poison tx.length }
  else { ok := true, rx := stubResponse e tx }

/-- The payload the stub stores: its variant `corrupt(a, b)` puts `b` at address `a` (R78). -/
def corruptRun (c : Option (Addr × Byte)) (at' : Nat) (p : Bytes) : Bytes :=
  match c with
  | none => p
  | some (a, b) => p.mapIdx fun i x => if (at' + i) % Config.addrSpace = a.toNat then b else x

/-- The stub's device after a frame that did not fail (R72 to R78). -/
def stubDevice (e : Env) (tx : Bytes) : Device :=
  let d := e.dev
  match receive tx with
  | .wren => if d.busy then d else { d with wel := true }
  | .wrdi => if d.busy then d else { d with wel := false }
  | .lpwp =>
    match e.setup.pollScript with
    | none => { d with busyLeft := d.busyLeft - 1 }
    | some _ => d
  | .data at' p =>
    if d.wel && !d.busy then
      { d with
        mem := storeRun stubPlace d.mem at' (corruptRun e.setup.corrupt at' p)
        wel := false
        busyLeft := e.setup.busyPolls }
    else d
  | .rdsr => d
  | .read _ _ => d
  | .ignored => d

/-- The variant `poll_script` gives each of its bytes once (R78; log 22). -/
def stubScript (e : Env) (tx : Bytes) : Option Bytes :=
  match receive tx with
  | .lpwp => e.setup.pollScript.map List.tail
  | _ => e.setup.pollScript

/-! ### One call of the transport -/

/-- The answer `(ok, rx)` of `Xfer(h, tx)` (R10, R68). The handle is not looked at. -/
def Env.answer (e : Env) (tx : Bytes) : Answer :=
  match e.transport with
  | .unconstrained => freeAnswer e tx.length
  | .stub => stubAnswer e tx

/-- The environment after `Xfer(h, tx)`: one more call, recorded (R71), and the device's part. -/
def Env.after (e : Env) (h : Handle) (tx : Bytes) : Env :=
  { e with
    calls := e.calls + 1
    log := e.log ++ [⟨h, tx⟩]
    answers :=
      match e.transport with
      | .unconstrained => e.answers.tail
      | .stub => e.answers
    dev :=
      match e.transport with
      | .unconstrained => e.dev.afterFrame e.setup.devSize e.calls tx (e.answer tx)
      | .stub => if stubFails e then e.dev else stubDevice e tx
    setup :=
      match e.transport with
      | .unconstrained => e.setup
      | .stub => if stubFails e then e.setup else { e.setup with pollScript := stubScript e tx } }

/-! ### The device when the poll loop of a WRITE ends -/

/-- What the answer that ends the poll loop of a WRITE shows about the device. -/
inductive LoopEnd where
  /-- `IDLE`: the write is completed (R157, R160); whether a read-back follows. -/
  | written (verify : Bool)
  /-- `Timeout`: "still busy at the last poll" (R160); what the write leaves in the range is any value (U13). -/
  | stillBusy
  /-- `ProtocolError`: "unknown" (R160, U13). -/
  | unknown
  deriving DecidableEq, Repr

/-- What the device has stored of a payload when its write is completed. It stands in the array before the read-back, and a
READ changes nothing (R58). So where a read-back follows and is answered, it is the bytes which that answer, already
determined in the state, will show (R53, R158): the payload, or what differs from it (R160). Otherwise it is the payload
(R28, R114). That the read-back shows what was stored is DEDUCED (log 24). -/
def storedBytes (verify : Bool) (p : Bytes) (e : Env) : Bytes :=
  match verify with
  | false => p
  | true =>
    let r := freeAnswer e (p.length + Config.hdrBytes)
    if r.ok then readData p.length r.rx else p

/-- The device behind the unconstrained transport when the poll loop of a WRITE ends (R160, R161). No frame is sent; what the
answer shows about the device is put on record. `IDLE` there shows that the write of the last data frame is completed,
whatever state it met the device in (R28, R63, R157). The stub's memory is what it is (R70). The model's choices (log 24): the
free values; after `ProtocolError` the latch is a free value also after the host's next `IDLE` poll of a device that counts as
busy, as where a WREN or a data frame met it (N11), and after `Timeout` it is one if such a frame met it before. -/
def Env.endLoop (x : LoopEnd) (e : Env) : Env :=
  { e with dev :=
      match e.transport with
      | .stub => e.dev
      | .unconstrained =>
        match x with
        | .written verify =>
          { mem :=
              match e.dev.lastData with
              | none => e.dev.mem
              | some f => storeRun (devicePlace e.setup.devSize) e.dev.mem f.addr (storedBytes verify f.payload e)
            wel := false
            busyLeft := 0
            lastData := none
            latchOpen := false }
        | .stillBusy => { e.dev with busyLeft := Config.freeBusy (e.calls - 1) + 1, lastData := none }
        | .unknown =>
          { e.dev with
            wel := Config.freeLatch (e.calls - 1)
            busyLeft := Config.freeBusy (e.calls - 1)
            lastData := none
            latchOpen := true } }

end Sys2Proof.Machine
end

