-- ==== Sys2Proof/Machine/Ops.lean ====
section
/-! DEFINITION. The shared operations of the block: one exchange, ending an operation with success or an error (R190),
accepting a request (R66, R22), and the reset input (R210, R211). -/

namespace Sys2Proof.Machine

/-- `seq_state <- q` (R10). -/
def setSeq (q : SeqState) (s : State) : State := { s with blk := { s.blk with seq := q } }

/-- The operation is over with this response: `seq_state <- Idle` (R10, R222). -/
def respond (r : Response) (s : State) : State := { s with blk := { s.blk with seq := .idle, rsp := some r } }

/-- `raise <Kind>` (R190): the result, no data, `Idle`. This is the block's one way of taking an exception. It saves
nothing and sends nothing. The return from it is the host's taking of the response (R192). -/
def raise (k : ErrorKind) (s : State) : State := respond (.failure k) s

/-- What the answer that ends the poll loop of a WRITE shows about the device is put on record (R160; log 24). -/
def noteLoopEnd (x : LoopEnd) (s : State) : State := { s with env := s.env.endLoop x }

/-- An error exit of the poll loop after an answer: `raise <Kind>`, with the last column of the table of R160. -/
def raiseInLoop (k : ErrorKind) (x : LoopEnd) (s : State) : State := raise k (noteLoopEnd x s)

/-- `return Success(v)` (R10). -/
def succeed (out : Output) (s : State) : State := respond (.success out) s

/-- The host takes the response; only then can the next request be accepted (R222, R192). -/
def takeResponse (r : Response) (s : State) : State :=
  { s with blk := { s.blk with rsp := none }, host := { s.host with received := s.host.received ++ [r] } }

/-- One `Xfer(h, tx)`: `txbuf` holds the frame, `rxbuf` the response (R24), the environment answers (R68). -/
def xfer (h : Handle) (tx : Bytes) (s : State) : State :=
  { s with
    blk := { s.blk with txbuf := tx, rxbuf := (s.env.answer tx).rx }
    env := s.env.after h tx }

/-- One `Xfer` and what follows it: `TransportError` at once if it failed, before any byte of `rx` is looked at (R181),
otherwise `k` of the response. -/
def exchange (h : Handle) (tx : Bytes) (k : Bytes → State → State) (s : State) : State :=
  if (s.env.answer tx).ok then k (s.env.answer tx).rx (xfer h tx s)
  else raise .transportError (xfer h tx s)

/-- A request is accepted only in `Idle` with no response waiting (R66, R222). -/
def State.accepting (s : State) : Bool := decide (s.blk.seq = .idle) && decide (s.blk.rsp = none)

/-- A request presented at any other time is not accepted and has no effect (R66; log 19). -/
def onAccept (s : State) (f : State → State) : Host.Outcome State Fault Refusal :=
  .next (if s.accepting then f s else s)

/-- The frame of a single-frame operation is sent in the one step that accepts its request (R21, R66; log 17). -/
def onIdleFrame (s : State) (f : State → State) : Host.Outcome State Fault Refusal :=
  if s.accepting then .next (f s) else .refused .frameNotSentHere

/-- Acceptance of an operation that uses the handle only (R22; log 14). -/
def latchOp (op : HostOp) (h : Handle) (s : State) : State :=
  { s with blk := { s.blk with opSel := op, opH := h } }

/-- Acceptance of a READ (R22). -/
def latchRead (h : Handle) (a : Addr) (n : Nat) (s : State) : State :=
  { s with blk := { s.blk with opSel := .read, opH := h, opAddr := a, opLen := n } }

/-- Acceptance of a WRITE (R22, R151). -/
def latchWrite (h : Handle) (a : Addr) (l : Nat) (v : Bool) (s : State) : State :=
  { s with blk := { s.blk with opSel := .write, opH := h, opAddr := a, opLen := l, opVerify := v } }

/-- `pbuf[0 .. L) <- P` (R23); the entries from `L` on keep what they hold. -/
def loadPayload (p : Bytes) (s : State) : State :=
  { s with blk := { s.blk with pbuf := p ++ s.blk.pbuf.drop p.length } }

/-- `pbuf[0 .. op_len)` (R34). -/
def livePayload (s : State) : Bytes := s.blk.pbuf.take s.blk.opLen

/-- Reset of the block (R210, R211): `Idle`, nothing pending, every other register unspecified, no frame sent; an
operation in progress is abandoned without a response and the device is left as it is (log 12, log 13). -/
def resetBlock (s : State) : State :=
  let n := s.host.resets
  { s with
    blk :=
      { seq := .idle
        opSel :=
          match Config.resetSelector n with
          | 0 => .read
          | 1 => .write
          | 2 => .rdsr
          | 3 => .wren
          | 4 => .wrdi
          | _ => .poll
        opH := Config.resetHandle n
        opAddr := Config.resetAddr n
        opLen := Config.resetLen n
        opVerify := Config.resetVerify n
        pbuf := (List.range Config.maxWrite).map (Config.resetByte n)
        txbuf := (List.range (Config.resetFrameLen n)).map fun i => Config.resetByte n (Config.maxWrite + 2 * i)
        rxbuf := (List.range (Config.resetFrameLen n)).map fun i => Config.resetByte n (Config.maxWrite + 2 * i + 1)
        pollCount := Config.resetPollCount n
        rsp := none }
    host := { s.host with resetLine := false, resets := n + 1 } }

end Sys2Proof.Machine
end

