-- ==== Sys2Proof/Machine/WriteSequencer.lean ====
section
/-! DEFINITION. The steps of the block: the single-frame operations (R111, R130 to R133) and the transitions of the write
sequencer (R152 to R159), and the WRITE request (R151). -/

namespace Sys2Proof.Machine

/-! ### Single-frame operations -/

/-- READ (R111): the count is checked first, then one frame. -/
def readStep (h : Handle) (a : Addr) (n : Nat) (s : State) : State :=
  if readOk s.cfg n then exchange h (readFrame a n) (fun rx t => succeed (.data (readData n rx)) t) s
  else raise .boundsError s

/-- RDSR (R130): the byte is returned uninterpreted. -/
def rdsrStep (h : Handle) (s : State) : State :=
  exchange h rdsrFrame (fun rx t => succeed (.byte (statusByte rx)) t) s

/-- WREN (R131). -/
def wrenStep (h : Handle) (s : State) : State := exchange h wrenFrame (fun _ t => succeed .nothing t) s

/-- WRDI (R132). -/
def wrdiStep (h : Handle) (s : State) : State := exchange h wrdiFrame (fun _ t => succeed .nothing t) s

/-- POLL (R133): one frame, no loop. -/
def pollOnce (h : Handle) (s : State) : State :=
  exchange h lpwpFrame
    (fun rx t =>
      match pollVerdict (statusByte rx) with
      | .busy => succeed (.byte Config.busy) t
      | .idle => succeed (.byte Config.idle) t
      | .illegal => raise .protocolError t) s

/-! ### The write sequencer -/

/-- `Idle → LatchEnabled` (R153). -/
def latchStep (s : State) : State := exchange s.blk.opH wrenFrame (fun _ t => setSeq .latchEnabled t) s

/-- `LatchEnabled → DataSent` (R154), the frame of R114. -/
def dataStep (a : Addr) (d : Bytes) (s : State) : State :=
  exchange s.blk.opH (dataFrame a d) (fun _ t => setSeq .dataSent t) s

/-- `DataSent → Polling` (R155): sends nothing. -/
def enterPolling (s : State) : State :=
  { s with blk :=
      { s.blk with
        seq := .polling
        pollCount :=
          match s.cfg.pollMax with
          | none => s.blk.pollCount
          | some _ => 0 } }

/-- `poll_count <- poll_count + 1`, only if `POLL_MAX` is set (R156). -/
def countPoll (s : State) : State :=
  { s with blk := { s.blk with pollCount := nextPollCount s.cfg s.blk.pollCount } }

/-- Leaving `Polling` on `IDLE` (R157): the device has completed the write (R160, R161). -/
def leavePolling (s : State) : State :=
  setSeq
    (match s.blk.opVerify with
      | true => .verifying
      | false => .done)
    (noteLoopEnd (.written s.blk.opVerify) s)

/-- What the poll step does with the byte of a poll that did not fail, the poll being counted (R156). -/
def pollAnswered (b : Byte) (s : State) : State :=
  match pollVerdict b with
  | .idle => leavePolling s
  | .busy =>
    match pollBoundReached s.cfg s.blk.pollCount with
    | true => raiseInLoop .timeout .stillBusy s
    | false => setSeq .polling s
  | .illegal => raiseInLoop .protocolError .unknown s

/-- The poll step (R156): the frame is counted before its answer is looked at. -/
def pollStep (s : State) : State :=
  exchange s.blk.opH lpwpFrame (fun rx t => pollAnswered (statusByte rx) t) (countPoll s)

/-- The verification step (R158): the READ framing and one comparison with the payload as it was accepted. -/
def verifyStep (a : Addr) (n : Nat) (s : State) : State :=
  exchange s.blk.opH (readFrame a n)
    (fun rx t =>
      if readData n rx = t.blk.pbuf.take n then setSeq .done t
      else raise .verificationError t) s

/-- `Done → Idle` (R159): sends nothing. -/
def finishWrite (s : State) : State := succeed .nothing s

/-- WRITE, selector 1 (R151): the bounds check (R152) and the write-enable frame (R153) are one step. -/
def execHostWrite (h : Handle) (a : Addr) (d : Bytes) (v : Bool) (s : State) : Host.Outcome State Fault Refusal :=
  onAccept s fun s =>
    let t := latchWrite h a d.length v s
    if writeOk s.cfg a d.length then latchStep (loadPayload d t) else raise .boundsError t

end Sys2Proof.Machine
end

