-- ==== Sys2Proof/Machine/CodecControl.lean ====
section
/-! DEFINITION. The status and control commands: RDSR, WREN, WRDI, POLL and their frames (R130 to R133), WRSR (R134) and
the illegal selectors (R186). -/

namespace Sys2Proof.Machine

/-- RDSR, selector 2 (R130). -/
def execHostRdsr (h : Handle) (s : State) : Host.Outcome State Fault Refusal :=
  onAccept s fun s => rdsrStep h (latchOp .rdsr h s)

/-- WREN, selector 3 (R131). -/
def execHostWren (h : Handle) (s : State) : Host.Outcome State Fault Refusal :=
  onAccept s fun s => wrenStep h (latchOp .wren h s)

/-- WRDI, selector 4 (R132). -/
def execHostWrdi (h : Handle) (s : State) : Host.Outcome State Fault Refusal :=
  onAccept s fun s => wrdiStep h (latchOp .wrdi h s)

/-- POLL, selector 5 (R133). -/
def execHostPoll (h : Handle) (s : State) : Host.Outcome State Fault Refusal :=
  onAccept s fun s => pollOnce h (latchOp .poll h s)

/-- The RDSR frame, wire 0x05 (R130). -/
def execWireRdsr (s : State) : Host.Outcome State Fault Refusal := onIdleFrame s (rdsrStep s.blk.opH)

/-- The WREN frame, wire 0x06 (R131). As step 1 of a WRITE it is `latchStep` (R153). -/
def execWireWren (s : State) : Host.Outcome State Fault Refusal := onIdleFrame s (wrenStep s.blk.opH)

/-- The WRDI frame, wire 0x04 (R132). -/
def execWireWrdi (s : State) : Host.Outcome State Fault Refusal := onIdleFrame s (wrdiStep s.blk.opH)

/-- The LPWP frame, wire 0x08: from `Idle` the frame of POLL (R133), from `Polling` the poll step (R156). -/
def execWireLpwp (s : State) : Host.Outcome State Fault Refusal :=
  match s.blk.seq with
  | .idle => onIdleFrame s (pollOnce s.blk.opH)
  | .polling => .next (pollStep s)
  | _ => .refused .frameNotSentHere

/-- WRSR, wire 0x01: in the table and never sent (R134, R87, U11). -/
def execWireWrsr (_ : State) : Host.Outcome State Fault Refusal := .refused .wrsrNeverSent

/-- Selector 6 (R186): answered `IllegalRequest`, and nothing else happens. -/
def execIllegal6 (s : State) : Host.Outcome State Fault Refusal := onAccept s (raise .illegalRequest)

/-- Selector 7 (R186): answered `IllegalRequest`, and nothing else happens. -/
def execIllegal7 (s : State) : Host.Outcome State Fault Refusal := onAccept s (raise .illegalRequest)

end Sys2Proof.Machine
end

