-- ==== Sys2Proof/Machine/CodecData.lean ====
section
/-! DEFINITION. The data commands of the codec: READ as a request and as a frame (R111), and the data frame (R114). -/

namespace Sys2Proof.Machine

/-- READ, selector 0 (R111). -/
def execHostRead (h : Handle) (a : Addr) (n : Nat) (s : State) : Host.Outcome State Fault Refusal :=
  onAccept s fun s => readStep h a n (latchRead h a n s)

/-- The READ frame, wire 0x03: from `Idle` the frame of the READ operation (R111), from `Verifying` the read-back
(R158). -/
def execWireRead (a : Addr) (n : Nat) (s : State) : Host.Outcome State Fault Refusal :=
  match s.blk.seq with
  | .idle => onIdleFrame s (readStep s.blk.opH a n)
  | .verifying => .next (verifyStep a n s)
  | _ => .refused .frameNotSentHere

/-- The data frame, wire 0x02: sent only by the sequencer in `LatchEnabled` (R114, R154). -/
def execWireWrite (a : Addr) (d : Bytes) (s : State) : Host.Outcome State Fault Refusal :=
  match s.blk.seq with
  | .latchEnabled => .next (dataStep a d s)
  | _ => .refused .frameNotSentHere

end Sys2Proof.Machine
end

