-- ==== Sys2Proof/Machine/Dispatch.lean ====
section
/-! DEFINITION. One arm per constructor of Instr. -/

namespace Sys2Proof.Machine

def exec (i : Instr) (s : State) : Host.Outcome State Fault Refusal :=
  match i with
  | .wireWrsr => Sys2Proof.Machine.execWireWrsr s
  | .wireWrite a d => Sys2Proof.Machine.execWireWrite a d s
  | .wireRead a n => Sys2Proof.Machine.execWireRead a n s
  | .wireWrdi => Sys2Proof.Machine.execWireWrdi s
  | .wireRdsr => Sys2Proof.Machine.execWireRdsr s
  | .wireWren => Sys2Proof.Machine.execWireWren s
  | .wireLpwp => Sys2Proof.Machine.execWireLpwp s
  | .hostRead h a n => Sys2Proof.Machine.execHostRead h a n s
  | .hostWrite h a d v => Sys2Proof.Machine.execHostWrite h a d v s
  | .hostRdsr h => Sys2Proof.Machine.execHostRdsr h s
  | .hostWren h => Sys2Proof.Machine.execHostWren h s
  | .hostWrdi h => Sys2Proof.Machine.execHostWrdi h s
  | .hostPoll h => Sys2Proof.Machine.execHostPoll h s
  | .illegal6 => Sys2Proof.Machine.execIllegal6 s
  | .illegal7 => Sys2Proof.Machine.execIllegal7 s

end Sys2Proof.Machine
end

