-- ==== Sys2Proof/Machine/Fetch.lean ====
section
/-! DEFINITION. What the machine does next: a request is accepted in `Idle` (R66), the sequencer's frame is sent outside it
(R150), the silent steps, the host's taking of a response (R222), the reset input (R211). -/

namespace Sys2Proof.Machine

/-- What the next step is. -/
inductive Activity where
  /-- An instruction is run on a state. -/
  | run (i : Instr) (s : State)
  /-- A step that sends nothing and runs no instruction. -/
  | silent (s : State)
  /-- The request port holds no request. -/
  | stop (f : Fault)
  deriving DecidableEq, Repr

/-- The request port is read once, at acceptance (R22): the host's next request then stands on it. -/
def withRequests (rs : List Request) (s : State) : State := { s with host := { s.host with requests := rs } }

/-- `Idle` with no response waiting: the request on the port is accepted, or nothing happens (R66, R210). -/
def fetchRequest (s : State) : Activity :=
  match s.host.requests with
  | [] => .silent s
  | r :: rest =>
    match decodeRequest r with
    | .ok i => .run i (withRequests rest s)
    | .error _ => .stop .malformedRequest

/-- The next step by `seq_state` (R150), the reset input first (R211). -/
def activity (s : State) : Activity :=
  if s.host.resetLine then .silent (resetBlock s)
  else
    match s.blk.seq with
    | .idle =>
      match s.blk.rsp with
      | some r => .silent (takeResponse r s)
      | none => fetchRequest s
    | .latchEnabled => .run (.wireWrite s.blk.opAddr (livePayload s)) s
    | .dataSent => .silent (enterPolling s)
    | .polling => .run .wireLpwp s
    | .verifying => .run (.wireRead s.blk.opAddr s.blk.opLen) s
    | .done => .silent (finishWrite s)

/-- A request put on the port of a block that is ready for it. -/
def presentRequest (r : Request) (s : State) : State :=
  { s with
    blk := { s.blk with seq := .idle, rsp := none }
    host := { s.host with requests := r :: s.host.requests, resetLine := false } }

/-- The sequencer put where it sends its next frame. -/
def presentSequencer (q : SeqState) (s : State) : State :=
  { s with blk := { s.blk with seq := q, rsp := none }, host := { s.host with resetLine := false } }

/-- The state in which the next step runs this instruction. A request goes on the request port. A frame that only the
sequencer sends puts the sequencer there, with the latches the frame is made from. The frame of a single-frame
operation is sent by the request for that operation. WRSR is never run (R134). -/
def placeInstr (i : Instr) (s : State) : State :=
  match i with
  | .wireWrsr => s
  | .wireWrite a d => loadPayload d (latchWrite s.blk.opH a d.length s.blk.opVerify (presentSequencer .latchEnabled s))
  | .wireRead a n => latchWrite s.blk.opH a n s.blk.opVerify (presentSequencer .verifying s)
  | .wireLpwp => presentSequencer .polling s
  | .wireWrdi => presentRequest (bareRequest 4 s.blk.opH) s
  | .wireRdsr => presentRequest (bareRequest 2 s.blk.opH) s
  | .wireWren => presentRequest (bareRequest 3 s.blk.opH) s
  | .hostRead _ _ _ | .hostWrite _ _ _ _ | .hostRdsr _ | .hostWren _ | .hostWrdi _ | .hostPoll _ | .illegal6
  | .illegal7 =>
    match encode i with
    | .request r => presentRequest r s
    | .frame _ => s

end Sys2Proof.Machine
end

