-- ==== Sys2Proof/Machine/Step.lean ====
section
/-! DEFINITION. One step of the machine. -/

namespace Sys2Proof.Machine

/-- One step: at most one `Xfer` (R11, D1). -/
def step (s : State) : Host.Outcome State Fault Refusal :=
  match activity s with
  | .run i t => exec i t
  | .silent t => .next t
  | .stop f => .fault f

/-- The state whose next step runs the instruction that stands for opcode-table word `w` of `nbits` bits. -/
def State.withFetchWord (s : State) (nbits w : Nat) : State :=
  match decodeTableWord nbits w with
  | some i => placeInstr i s
  | none => s

end Sys2Proof.Machine
end

