-- ==== Sys2Proof/Machine/WriteFunction.lean ====
section
/-! DEFINITION. WRITE as one function of the transport's answers (R163). It is the spec's second description of WRITE, beside
the transitions of WriteSequencer.lean, and the machine does not call it. -/

namespace Sys2Proof.Machine

/-- The loop of R163: `k` polls were sent before. `none`: not over within `fuel` polls. Otherwise the error, if any, and
the environment after the last poll. -/
def pollFunction (c : Config) (h : Handle) : Nat → Nat → Env → Option (Option ErrorKind × Env)
  | 0, _, _ => none
  | fuel + 1, k, e =>
    let a := e.answer [0x08, 0x00]
    let e' := e.after h [0x08, 0x00]
    if a.ok = false then some (some .transportError, e')
    else if a.rx.getD 1 0 = 0x00 then some (none, e')
    else if a.rx.getD 1 0 ≠ 0xFF then some (some .protocolError, e'.endLoop .unknown)
    else
      match c.pollMax with
      | none => pollFunction c h fuel (k + 1) e'
      | some n => if k + 1 ≥ n then some (some .timeout, e'.endLoop .stillBusy) else pollFunction c h fuel (k + 1) e'

/-- What R163 does after the loop. -/
def verifyFunction (h : Handle) (a : Addr) (p : Bytes) (v : Bool) (e : Env) : Response × Env :=
  if v then
    let r := e.answer (readFrame a p.length)
    let e' := e.after h (readFrame a p.length)
    if r.ok = false then (.failure .transportError, e')
    else if readData p.length r.rx ≠ p then (.failure .verificationError, e')
    else (.success .nothing, e')
  else (.success .nothing, e)

/-- WRITE as one function (R163); `none` when the loop is not over within `fuel` polls. -/
def writeFunction (c : Config) (fuel : Nat) (h : Handle) (a : Addr) (p : Bytes) (v : Bool) (e : Env) :
    Option (Response × Env) :=
  if writeOk c a p.length = false then some (.failure .boundsError, e)
  else if (e.answer [0x06]).ok = false then some (.failure .transportError, e.after h [0x06])
  else
    let e1 := e.after h [0x06]
    let e2 := e1.after h (dataFrame a p)
    if (e1.answer (dataFrame a p)).ok = false then some (.failure .transportError, e2)
    else
      match pollFunction c h fuel 0 e2 with
      | none => none
      | some (some k, e3) => some (.failure k, e3)
      | some (none, e3) => some (verifyFunction h a p v (e3.endLoop (.written v)))

end Sys2Proof.Machine
end

