-- ==== Sys2Proof/Safety.lean ====
section
/-! DEFINITION. What counts as a safe state, and the words the statements use. -/

namespace Sys2Proof.Machine

/-- The state after a step, if it answers one. -/
def nextOf : Host.Outcome State Fault Refusal → Option State
  | .next s => some s
  | .fault _ => none
  | .refused _ => none

/-- `k` steps; `Core.run` of the host's interface on this machine. -/
def runSteps : Nat → State → Host.Outcome State Fault Refusal
  | 0, s => .next s
  | k + 1, s =>
    match step s with
    | .next t => runSteps k t
    | .fault f => .fault f
    | .refused r => .refused r

/-- `WRITE_OK` of the latches is live knowledge in these states (R34, C3). -/
def SeqState.inWrite : SeqState → Bool
  | .idle => false
  | .latchEnabled => true
  | .dataSent => true
  | .polling => true
  | .verifying => true
  | .done => false

/-- What every step keeps. -/
structure Inv (s : State) : Prop where
  /-- The parameters keep their side conditions (R5). -/
  params : s.cfg.wf = true
  /-- Device memory is in canonical form. -/
  memory : Memory.wf s.env.dev.mem = true
  /-- The payload buffer has 256 entries (R23). -/
  payload : s.blk.pbuf.length = 256
  /-- `len(tx) = len(rx)` (R24). -/
  buffers : s.blk.txbuf.length = s.blk.rxbuf.length
  /-- Every call is recorded (R71). -/
  recorded : s.env.log.length = s.env.calls
  /-- An operation in progress has no response yet (R222), and only WRITE leaves `Idle` (R21). -/
  progress : s.blk.seq ≠ .idle → s.blk.rsp = none ∧ s.blk.opSel = .write
  /-- The bounds check was passed before the latch (R112, C3). -/
  bounds : s.blk.seq.inWrite = true → writeOk s.cfg s.blk.opAddr s.blk.opLen = true
  /-- A poll is still allowed (R25, R156). -/
  polls : s.blk.seq = .polling → ∀ n, s.cfg.pollMax = some n → s.blk.pollCount < n

/-- Two states agree on everything that can be read before it is written (R34). -/
structure LiveEq (s t : State) : Prop where
  params : s.cfg = t.cfg
  host : s.host = t.host
  env : s.env = t.env
  seq : s.blk.seq = t.blk.seq
  rsp : s.blk.rsp = t.blk.rsp
  /-- `op_h` is live in a WRITE until `Done`. -/
  handle : s.blk.seq.inWrite = true → s.blk.opH = t.blk.opH
  /-- `op_addr`, `op_len` and the payload are live until the data frame, and further if verification is requested. -/
  operands : s.blk.seq.inWrite = true → (s.blk.opVerify = true ∨ s.blk.seq = .latchEnabled ∨ s.blk.seq = .verifying) →
    s.blk.opAddr = t.blk.opAddr ∧ s.blk.opLen = t.blk.opLen ∧ livePayload s = livePayload t
  /-- `op_verify` is live until the poll loop ends. -/
  verify : s.blk.seq = .latchEnabled ∨ s.blk.seq = .dataSent ∨ s.blk.seq = .polling → s.blk.opVerify = t.blk.opVerify
  /-- `poll_count` is live in `Polling` if `POLL_MAX` is set. -/
  polls : s.blk.seq = .polling → s.cfg.pollMax ≠ none → s.blk.pollCount = t.blk.pollCount

/-! ### Words of the statements -/

/-- What WRITE may store (R112), in the words of the rule. -/
def SameRow (c : Config) (a : Addr) (l : Nat) : Prop :=
  1 ≤ l ∧ l ≤ 256 ∧ a.toNat >>> c.rowBits = (a.toNat + l - 1) >>> c.rowBits

/-- Byte address `x` is stored to by a data frame of `len` bytes at `a`: `A + i`, in the stub modulo `2^24` (R76), behind the
unconstrained transport if the device has it (R59). -/
def StoredTo (e : Env) (a len x : Nat) : Prop :=
  ∃ i < len, (match e.transport with
    | .unconstrained => devicePlace e.setup.devSize (a + i)
    | .stub => stubPlace (a + i)) = some x

/-- The answers to calls made one after another (R163). -/
def answersTo : Env → List Call → List Answer
  | _, [] => []
  | e, c :: cs => e.answer c.tx :: answersTo (e.after c.h c.tx) cs

/-- The two responses agree on the positions the table of R85 gives the command. -/
def UsedBytesAgree (i : Instr) (r1 r2 : Bytes) : Prop :=
  match i with
  | .hostRdsr _ | .hostPoll _ | .wireRdsr | .wireLpwp => r1[1]? = r2[1]?
  | .hostRead _ _ n | .wireRead _ n => ∀ j < n, r1[4 + j]? = r2[4 + j]?
  | .hostWrite _ _ _ _ | .hostWren _ | .hostWrdi _ | .wireWrite _ _ | .wireWren | .wireWrdi | .wireWrsr | .illegal6
  | .illegal7 => True

end Sys2Proof.Machine
end

