-- ==== Sys2Proof/Certificates/Slice0/Obligations.lean ====
section
/-! DEFINITION. The statements for the provers. Each formalises the rule of spec/ its docstring names. -/

open Sys2Proof Sys2Proof.Machine

/-! ### Encoding -/

/-- Decoding an encoded well-formed instruction gives it back, for every instruction and every operand (30_encoding.md). -/
def Obligations.EncodeDecodeRoundTrip : Prop :=
  ∀ (c : Config) (i : Instr), i.wf c = true → decode c (encode i) = .ok i

/-- A frame that decodes is the encoding of what it decodes to, but for the pad bytes of a READ (R90, U15). -/
def Obligations.DecodedFramesAreEncodings : Prop :=
  ∀ (c : Config) (f : Bytes) (i : Instr), decodeFrame c f = .ok i →
    i.wf c = true ∧ ∃ g, encode i = .frame g ∧ g.length = f.length ∧ g.take 4 = f.take 4 ∧
      ((∀ a n, i ≠ .wireRead a n) → g = f)

/-- The opcode map in full (R90): which frames are which command, and that no other frame is one. -/
def Obligations.OpcodeMapInFull : Prop :=
  ∀ (c : Config) (f : Bytes),
    (decodeFrame c f = .ok .wireWrsr ↔ f = [0x01]) ∧
    (decodeFrame c f = .ok .wireWrdi ↔ f = [0x04]) ∧
    (decodeFrame c f = .ok .wireRdsr ↔ f = [0x05, 0x00]) ∧
    (decodeFrame c f = .ok .wireWren ↔ f = [0x06]) ∧
    (decodeFrame c f = .ok .wireLpwp ↔ f = [0x08, 0x00]) ∧
    (∀ a d, decodeFrame c f = .ok (.wireWrite a d) ↔
      (5 ≤ f.length ∧ f.length ≤ 260) ∧ ∃ a0 a1 a2, f = 0x02 :: a0 :: a1 :: a2 :: d ∧
        a.toNat = a0.toNat + 256 * a1.toNat + 65536 * a2.toNat) ∧
    (∀ a n, decodeFrame c f = .ok (.wireRead a n) ↔
      (5 ≤ f.length ∧ f.length ≤ c.maxRead + 4) ∧ ∃ a0 a1 a2 d, f = 0x03 :: a0 :: a1 :: a2 :: d ∧ d.length = n ∧
        a.toNat = a0.toNat + 256 * a1.toNat + 65536 * a2.toNat) ∧
    (∀ i, decodeFrame c f = .ok i → ∃ op rest, f = op :: rest ∧
      (op = 0x01 ∨ op = 0x02 ∨ op = 0x03 ∨ op = 0x04 ∨ op = 0x05 ∨ op = 0x06 ∨ op = 0x08))

/-- The selector table of R88, with the fields each operation uses. -/
def Obligations.RequestSelectorTable : Prop :=
  ∀ r : Request,
    (r.op = 0 → decodeRequest r = .ok (.hostRead r.h r.addr r.len)) ∧
    (r.op = 1 → r.data.length = r.len → decodeRequest r = .ok (.hostWrite r.h r.addr r.data r.verify)) ∧
    (r.op = 2 → decodeRequest r = .ok (.hostRdsr r.h)) ∧
    (r.op = 3 → decodeRequest r = .ok (.hostWren r.h)) ∧
    (r.op = 4 → decodeRequest r = .ok (.hostWrdi r.h)) ∧
    (r.op = 5 → decodeRequest r = .ok (.hostPoll r.h)) ∧
    (r.op = 6 → decodeRequest r = .ok .illegal6) ∧
    (r.op = 7 → decodeRequest r = .ok .illegal7)

/-- The address prefix (R110): opcode, then the address least significant byte first, nothing lost. -/
def Obligations.AddressPrefixLeastSignificantFirst : Prop :=
  ∀ (op : Byte) (a : Addr),
    encAddr op a = [op, a.extractLsb' 0 8, a.extractLsb' 8 8, a.extractLsb' 16 8] ∧
    a.toNat = (a.extractLsb' 0 8).toNat + 256 * (a.extractLsb' 8 8).toNat + 65536 * (a.extractLsb' 16 8).toNat ∧
    encAddr op 0x000000 = [op, 0x00, 0x00, 0x00] ∧
    encAddr op 0xFFFFFF = [op, 0xFF, 0xFF, 0xFF] ∧
    encAddr 0x02 0x01ABCD = [0x02, 0xCD, 0xAB, 0x01]

/-- Words written out from the opcode table, one or more per family (R81, S1). -/
def Obligations.WrittenWordsDecode : Prop :=
  decodeFrame Config.reference [0x02, 0xCD, 0xAB, 0x01, 0xEE, 0xCA, 0xDD, 0x32, 0x55] =
      .ok (.wireWrite 0x01ABCD [0xEE, 0xCA, 0xDD, 0x32, 0x55]) ∧
    decodeFrame Config.reference [0x03, 0x56, 0x34, 0x12, 0x00, 0x00] = .ok (.wireRead 0x123456 2) ∧
    decodeFrame Config.reference [0x05, 0x00] = .ok .wireRdsr ∧
    decodeFrame Config.reference [0x06] = .ok .wireWren ∧
    decodeRequest { op := 0b101, h := ⟨3⟩, addr := 0, len := 0, verify := false, data := [] } = .ok (.hostPoll ⟨3⟩)

/-! ### The bounds check -/

/-- The consequences R113 draws from the bounds check, all five. -/
def Obligations.BoundsCheckArithmetic : Prop :=
  (∀ (c : Config) (a : Addr) (l : Nat), c.rowBits = 8 →
    (writeOk c a l = true ↔ 1 ≤ l ∧ a.toNat % 256 + l ≤ 256) ∧
    (1 ≤ l → row c a.toNat = row c (a.toNat + l - 1) → l ≤ 256) ∧
    (1 ≤ l → l ≤ 256 → a.toNat + l - 1 ≤ 0x10000FE ∧
      (row c (a.toNat + l - 1) = row c a.toNat ∨
        row c (a.toNat + l - 1) = row c a.toNat + 1 ∧ row c (a.toNat + l - 1) % 2 ≠ row c a.toNat % 2) ∧
      (a.toNat / 256 % 256 = (a.toNat + l - 1) / 256 % 256 ↔ row c a.toNat = row c (a.toNat + l - 1)))) ∧
  (∀ (c : Config) (a : Addr), c.rowBits = 8 →
    writeOk c a (256 - a.toNat % 256) = true ∧ writeOk c a (256 - a.toNat % 256 + 1) = false ∧
    (writeOk c a 256 = true ↔ a.toNat % 256 = 0) ∧ writeOk c a 1 = true) ∧
  (∀ (c : Config) (a : Addr) (l : Nat), 256 < l → writeOk c a l = false) ∧
  (∀ c : Config, c.rowBits = 8 → writeOk c 0xFFFFFF 2 = false ∧ row c 0xFFFFFF = 0xFFFF ∧ row c 0x1000000 = 0x10000) ∧
  (∀ (c : Config) (a : Addr) (l : Nat), c.rowBits = 10 →
    (writeOk c a l = true ↔ 1 ≤ l ∧ l ≤ 256 ∧ a.toNat % 1024 + l ≤ 1024)) ∧
  (∀ c : Config, c.rowBits = 10 →
    ∃ (a : Addr) (l : Nat), 1 ≤ l ∧ row c a.toNat = row c (a.toNat + l - 1) ∧ writeOk c a l = false)

/-- A WRITE that fails the bounds check ends with `BoundsError`, sends no frame and touches no device (R152). -/
def Obligations.RejectedWriteSendsNothing : Prop :=
  ∀ (s : State) (h : Handle) (a : Addr) (d : Bytes) (v : Bool),
    s.accepting = true → ¬ SameRow s.cfg a d.length →
    ∃ t, exec (.hostWrite h a d v) s = .next t ∧ t.blk.rsp = some (.failure .boundsError) ∧ t.blk.seq = .idle ∧
      t.env = s.env ∧ t.host = s.host ∧ t.cfg = s.cfg ∧ t.blk.pbuf = s.blk.pbuf

/-! ### The write sequencer -/

/-- `Idle → LatchEnabled` (R153): the latches take the request, the write-enable frame is sent once. -/
def Obligations.AcceptedWriteSendsWriteEnable : Prop :=
  ∀ (s : State) (h : Handle) (a : Addr) (d : Bytes) (v : Bool),
    s.accepting = true → SameRow s.cfg a d.length →
    ∃ t, exec (.hostWrite h a d v) s = .next t ∧ t.env = s.env.after h [0x06] ∧
      t.env.log = s.env.log ++ [⟨h, [0x06]⟩] ∧
      ((s.env.answer [0x06]).ok = true →
        t.blk.seq = .latchEnabled ∧ t.blk.rsp = none ∧ t.blk.opH = h ∧ t.blk.opAddr = a ∧ t.blk.opLen = d.length ∧
          t.blk.opVerify = v ∧ t.blk.pbuf.take d.length = d) ∧
      ((s.env.answer [0x06]).ok = false → t.blk.seq = .idle ∧ t.blk.rsp = some (.failure .transportError))

/-- `LatchEnabled → DataSent` (R154) with the frame of R114: the step sends the data frame made of the latches, and the data
frame of any address and payload is sent once, its response is not read, and it completes. -/
def Obligations.DataFrameStep : Prop :=
  ∀ s : State, s.blk.seq = .latchEnabled →
    (s.host.resetLine = false → step s = exec (.wireWrite s.blk.opAddr (s.blk.pbuf.take s.blk.opLen)) s) ∧
    ∀ (a : Addr) (d : Bytes),
      let tx := [0x02, a.extractLsb' 0 8, a.extractLsb' 8 8, a.extractLsb' 16 8] ++ d
      ∃ t, exec (.wireWrite a d) s = .next t ∧ tx.length = d.length + 4 ∧ t.env = s.env.after s.blk.opH tx ∧
        t.env.log = s.env.log ++ [⟨s.blk.opH, tx⟩] ∧
        ((s.env.answer tx).ok = true → t.blk.seq = .dataSent ∧ t.blk.rsp = s.blk.rsp) ∧
        ((s.env.answer tx).ok = false → t.blk.seq = .idle ∧ t.blk.rsp = some (.failure .transportError))

/-- `DataSent → Polling` (R155): sends nothing, sets `poll_count` to 0 only if `POLL_MAX` is set. -/
def Obligations.EnterPollingStep : Prop :=
  ∀ s : State, s.host.resetLine = false → s.blk.seq = .dataSent →
    step s = .next { s with blk := { s.blk with
      seq := .polling, pollCount := if s.cfg.pollMax = none then s.blk.pollCount else 0 } }

/-- The poll step (R156) and leaving it (R157), for every answer. The account of the device where an answer ends the loop is
`Env.endLoop` (R160); the model's choice in it is log 24. -/
def Obligations.PollStep : Prop :=
  ∀ s : State, s.host.resetLine = false → s.blk.seq = .polling →
    let r := s.env.answer [0x08, 0x00]
    let e := s.env.after s.blk.opH [0x08, 0x00]
    step s = exec .wireLpwp s ∧
    ∃ t, exec .wireLpwp s = .next t ∧ t.env.log = s.env.log ++ [⟨s.blk.opH, [0x08, 0x00]⟩] ∧
      t.blk.pollCount = (if s.cfg.pollMax = none then s.blk.pollCount else s.blk.pollCount + 1) ∧
      (r.ok = false → t.blk.seq = .idle ∧ t.blk.rsp = some (.failure .transportError) ∧ t.env = e) ∧
      (r.ok = true → r.rx[1]? = some 0x00 →
        t.blk.seq = (if s.blk.opVerify = true then .verifying else .done) ∧ t.blk.rsp = s.blk.rsp ∧
          t.env = e.endLoop (.written s.blk.opVerify)) ∧
      (r.ok = true → r.rx[1]? = some 0xFF → (∃ n, s.cfg.pollMax = some n ∧ n ≤ s.blk.pollCount + 1) →
        t.blk.seq = .idle ∧ t.blk.rsp = some (.failure .timeout) ∧ t.env = e.endLoop .stillBusy) ∧
      (r.ok = true → r.rx[1]? = some 0xFF → (∀ n, s.cfg.pollMax = some n → s.blk.pollCount + 1 < n) →
        t.blk.seq = .polling ∧ t.blk.rsp = s.blk.rsp ∧ t.env = e) ∧
      (r.ok = true → r.rx[1]? ≠ some 0x00 → r.rx[1]? ≠ some 0xFF →
        t.blk.seq = .idle ∧ t.blk.rsp = some (.failure .protocolError) ∧ t.env = e.endLoop .unknown)

/-- The verification step (R158): the READ framing, the first four response bytes discarded, one comparison with the
payload as it was accepted. -/
def Obligations.VerificationStep : Prop :=
  ∀ s : State, s.host.resetLine = false → s.blk.seq = .verifying → s.blk.opLen ≤ s.blk.pbuf.length →
    let tx := [0x03, s.blk.opAddr.extractLsb' 0 8, s.blk.opAddr.extractLsb' 8 8, s.blk.opAddr.extractLsb' 16 8] ++
      List.replicate s.blk.opLen 0x00
    let r := s.env.answer tx
    let e := s.env.after s.blk.opH tx
    step s = exec (.wireRead s.blk.opAddr s.blk.opLen) s ∧
    ∃ t, step s = .next t ∧ t.env.log = s.env.log ++ [⟨s.blk.opH, tx⟩] ∧
      (r.ok = false → t.blk.seq = .idle ∧ t.blk.rsp = some (.failure .transportError) ∧ t.env = e) ∧
      (r.ok = true → (∀ i < s.blk.opLen, r.rx[4 + i]? = s.blk.pbuf[i]?) →
        t.blk.seq = .done ∧ t.blk.rsp = s.blk.rsp ∧ t.env = e) ∧
      (r.ok = true → (∃ i < s.blk.opLen, r.rx[4 + i]? ≠ s.blk.pbuf[i]?) →
        t.blk.seq = .idle ∧ t.blk.rsp = some (.failure .verificationError) ∧ t.env = e)

/-- `Done → Idle` (R159): reports `Success`, sends nothing. -/
def Obligations.DoneReportsSuccess : Prop :=
  ∀ s : State, s.host.resetLine = false → s.blk.seq = .done →
    step s = .next { s with blk := { s.blk with seq := .idle, rsp := some (.success .nothing) } }

/-- The state graph (R150): every arrow a step takes, and the frame it sends on it. From `Idle` to `Idle` a step sends
nothing, or the one frame of an operation. -/
def Obligations.StateGraphArrows : Prop :=
  ∀ s t : State, s.host.resetLine = false → step s = .next t →
    let h := s.blk.opH
    let head4 (op : Byte) : Bytes :=
      [op, s.blk.opAddr.extractLsb' 0 8, s.blk.opAddr.extractLsb' 8 8, s.blk.opAddr.extractLsb' 16 8]
    (s.blk.seq = .idle ∧ t.blk.seq = .idle ∧ (t.env = s.env ∨ ∃ g tx, t.env.log = s.env.log ++ [⟨g, tx⟩] ∧
      (tx = [0x06] ∨ tx = [0x04] ∨ tx = [0x05, 0x00] ∨ tx = [0x08, 0x00] ∨ ∃ a n, tx = readFrame a n))) ∨
    (s.blk.seq = .idle ∧ t.blk.seq = .latchEnabled ∧ ∃ r rest g a d v, s.host.requests = r :: rest ∧
      decodeRequest r = .ok (.hostWrite g a d v) ∧ SameRow s.cfg a d.length ∧
      t.env.log = s.env.log ++ [⟨g, [0x06]⟩]) ∨
    (s.blk.seq = .latchEnabled ∧ (t.blk.seq = .dataSent ∨ t.blk.seq = .idle) ∧
      t.env.log = s.env.log ++ [⟨h, head4 0x02 ++ s.blk.pbuf.take s.blk.opLen⟩]) ∨
    (s.blk.seq = .dataSent ∧ t.blk.seq = .polling ∧ t.env = s.env) ∨
    (s.blk.seq = .polling ∧ (t.blk.seq = .polling ∨ t.blk.seq = .verifying ∧ s.blk.opVerify = true ∨
      t.blk.seq = .done ∧ s.blk.opVerify = false ∨ t.blk.seq = .idle) ∧
      t.env.log = s.env.log ++ [⟨h, [0x08, 0x00]⟩]) ∨
    (s.blk.seq = .verifying ∧ (t.blk.seq = .done ∨ t.blk.seq = .idle) ∧
      t.env.log = s.env.log ++ [⟨h, head4 0x03 ++ List.replicate s.blk.opLen 0x00⟩]) ∨
    (s.blk.seq = .done ∧ t.blk.seq = .idle ∧ t.env = s.env ∧ t.blk.rsp = some (.success .nothing))

/-- The WRITE operation is the function of R163: whenever the function ends, the machine's steps end with the same result
and the same environment. -/
def Obligations.StepsComputeWriteFunction : Prop :=
  ∀ (s : State) (r : Request) (rest : List Request) (h : Handle) (a : Addr) (d : Bytes) (v : Bool) (fuel : Nat)
    (w : Response) (e : Env),
    s.host.resetLine = false → s.accepting = true → s.host.requests = r :: rest →
    decodeRequest r = .ok (.hostWrite h a d v) → writeFunction s.cfg fuel h a d v s.env = some (w, e) →
    ∃ k t, runSteps k s = .next t ∧ t.blk.seq = .idle ∧ t.blk.rsp = some w ∧ t.env = e ∧ t.cfg = s.cfg ∧
      t.host = { s.host with requests := rest }

/-- A WRITE whose poll loop is not over after `fuel` polls has no result yet (R163, R216): after that many polls it is still
in progress and presents nothing. If this is so for every `fuel`, the WRITE never ends. -/
def Obligations.UnfinishedWriteHasNoResult : Prop :=
  ∀ (s : State) (r : Request) (rest : List Request) (h : Handle) (a : Addr) (d : Bytes) (v : Bool) (fuel : Nat),
    s.host.resetLine = false → s.accepting = true → s.host.requests = r :: rest →
    decodeRequest r = .ok (.hostWrite h a d v) → writeFunction s.cfg fuel h a d v s.env = none →
    ∀ k < fuel + 3, ∃ t, runSteps (k + 1) s = .next t ∧ t.blk.seq ≠ .idle ∧ t.blk.rsp = none

/-- Number and order of the transport calls of one WRITE (R164), on every path: which frames were sent before each result
(the table of R160), that they are sent up to and including the call at which the failure was detected, and that a WRITE has
no other result (R151). `rs` are the answers to the calls sent: the calls before the last one did not fail, the polls before
the last one were answered `BUSY`, and the last answer is what the result says. -/
def Obligations.WriteCallSequence : Prop :=
  ∀ (c : Config) (fuel : Nat) (h : Handle) (a : Addr) (d : Bytes) (v : Bool) (e e' : Env) (w : Response),
    writeFunction c fuel h a d v e = some (w, e') →
    let wren : Call := ⟨h, [0x06]⟩
    let data : Call := ⟨h, dataFrame a d⟩
    let polls (k : Nat) : List Call := [wren, data] ++ List.replicate k ⟨h, [0x08, 0x00]⟩
    let full (k : Nat) : List Call := polls k ++ (if v then [⟨h, readFrame a d.length⟩] else [])
    let legal (k : Nat) : Prop := 1 ≤ k ∧ ∀ n, c.pollMax = some n → 1 ≤ n → k ≤ n
    ∃ sent, e'.log = e.log ++ sent ∧ e'.calls = e.calls + sent.length ∧
      (writeOk c a d.length = false → sent = []) ∧
      (∀ n, c.pollMax = some n → 1 ≤ n → sent.length ≤ 3 + n) ∧
      let rs := answersTo e sent
      let allOk : Prop := ∀ r ∈ rs, r.ok = true
      let said (i : Nat) (P : Byte → Prop) : Prop := ∃ r b, rs[2 + i]? = some r ∧ r.rx[1]? = some b ∧ P b
      let busyBut (k : Nat) : Prop := ∀ i, i + 1 < k → said i (· = 0xFF)
      ((w = .success .nothing ∧ allOk ∧ ∃ k, legal k ∧ sent = full k ∧ (sent.length = 2 + k + if v then 1 else 0) ∧
          busyBut k ∧ said (k - 1) (· = 0x00) ∧
          (v = true → ∃ r, rs.getLast? = some r ∧ (r.rx.drop 4).take d.length = d)) ∨
       (w = .failure .boundsError ∧ sent = []) ∨
       (w = .failure .transportError ∧ (∀ r ∈ rs.dropLast, r.ok = true) ∧ (∃ r, rs.getLast? = some r ∧ r.ok = false) ∧
          (sent = [wren] ∨ sent = [wren, data] ∨ (∃ k, legal k ∧ sent = polls k ∧ busyBut k) ∨
            v = true ∧ ∃ k, legal k ∧ sent = full k ∧ busyBut k ∧ said (k - 1) (· = 0x00))) ∨
       (w = .failure .protocolError ∧ allOk ∧ ∃ k, legal k ∧ sent = polls k ∧ busyBut k ∧
          said (k - 1) fun b => b ≠ 0x00 ∧ b ≠ 0xFF) ∨
       (w = .failure .timeout ∧ allOk ∧ ∃ n, c.pollMax = some n ∧
          (1 ≤ n → sent = polls n ∧ busyBut n ∧ said (n - 1) (· = 0xFF))) ∨
       (w = .failure .verificationError ∧ allOk ∧ v = true ∧ ∃ k, legal k ∧ sent = full k ∧ busyBut k ∧
          said (k - 1) (· = 0x00) ∧ ∃ r, rs.getLast? = some r ∧ (r.rx.drop 4).take d.length ≠ d))

/-- Without a bound a device that answers BUSY keeps the block in `Polling`: after `k` such answers it has sent `k` polls
and has no result (R216). -/
def Obligations.BusyAnswersKeepPolling : Prop :=
  ∀ (k : Nat) (x : Byte) (s : State) (more : List Answer),
    s.host.resetLine = false → s.blk.seq = .polling → s.blk.rsp = none → s.cfg.pollMax = none →
    s.env.transport = .unconstrained → s.env.answers = List.replicate k ⟨true, [x, 0xFF]⟩ ++ more →
    ∃ t, runSteps k s = .next t ∧ t.blk.seq = .polling ∧ t.blk.rsp = none ∧ t.env.answers = more ∧
      t.env.calls = s.env.calls + k

/-- With `POLL_MAX = some n` polling ends: whatever the transport answers, a response is presented within the polls that
are left and the two steps after them (R156, D6). -/
def Obligations.BoundedPollingEnds : Prop :=
  ∀ (s : State) (n : Nat),
    s.host.resetLine = false → s.blk.seq = .polling → s.cfg.pollMax = some n → s.blk.pollCount < n →
    ∃ k t, k ≤ n - s.blk.pollCount + 2 ∧ runSteps k s = .next t ∧ t.blk.seq = .idle ∧ t.blk.rsp ≠ none

/-! ### The single-frame operations -/

/-- READ (R111): bounds first, one frame, exactly the requested bytes from offset 4, nothing changed in the device. -/
def Obligations.ReadReturnsRequestedBytes : Prop :=
  ∀ (s : State) (h : Handle) (a : Addr) (n : Nat), s.accepting = true →
    let tx := [0x03, a.extractLsb' 0 8, a.extractLsb' 8 8, a.extractLsb' 16 8] ++ List.replicate n 0x00
    let r := s.env.answer tx
    ∃ t, exec (.hostRead h a n) s = .next t ∧ t.blk.seq = .idle ∧ tx.length = n + 4 ∧ t.env.dev = s.env.dev ∧
      (n = 0 ∨ s.cfg.maxRead < n → t.blk.rsp = some (.failure .boundsError) ∧ t.env = s.env) ∧
      (1 ≤ n → n ≤ s.cfg.maxRead →
        t.env = s.env.after h tx ∧ t.env.log = s.env.log ++ [⟨h, tx⟩] ∧
        (r.ok = false → t.blk.rsp = some (.failure .transportError)) ∧
        (r.ok = true → ∃ d, t.blk.rsp = some (.success (.data d)) ∧ d.length = n ∧ ∀ i < n, d[i]? = r.rx[4 + i]?))

/-- RDSR (R130): the byte at offset 1, uninterpreted. -/
def Obligations.ReadStatusReturnsByteOne : Prop :=
  ∀ (s : State) (h : Handle), s.accepting = true →
    let r := s.env.answer [0x05, 0x00]
    ∃ t, exec (.hostRdsr h) s = .next t ∧ t.blk.seq = .idle ∧ t.env = s.env.after h [0x05, 0x00] ∧
      t.env.log = s.env.log ++ [⟨h, [0x05, 0x00]⟩] ∧ t.env.dev = s.env.dev ∧
      (r.ok = false → t.blk.rsp = some (.failure .transportError)) ∧
      (r.ok = true → ∀ b, r.rx[1]? = some b → t.blk.rsp = some (.success (.byte b)))

/-- WREN (R131), with its effect on the latch of an idle device (R29). That a busy device is left out is the model's choice
(log 9). -/
def Obligations.WriteEnableSetsLatch : Prop :=
  ∀ (s : State) (h : Handle), s.accepting = true →
    let r := s.env.answer [0x06]
    ∃ t, exec (.hostWren h) s = .next t ∧ t.blk.seq = .idle ∧ t.env = s.env.after h [0x06] ∧
      t.env.log = s.env.log ++ [⟨h, [0x06]⟩] ∧
      (r.ok = false → t.blk.rsp = some (.failure .transportError)) ∧
      (r.ok = true → t.blk.rsp = some (.success .nothing)) ∧
      (r.ok = true → s.env.dev.busyLeft = 0 → t.env.dev = { s.env.dev with wel := true })

/-- WRDI (R132), with its effect on the latch of an idle device (R29). That a busy device is left out is the model's choice
(log 9). -/
def Obligations.WriteDisableClearsLatch : Prop :=
  ∀ (s : State) (h : Handle), s.accepting = true →
    let r := s.env.answer [0x04]
    ∃ t, exec (.hostWrdi h) s = .next t ∧ t.blk.seq = .idle ∧ t.env = s.env.after h [0x04] ∧
      t.env.log = s.env.log ++ [⟨h, [0x04]⟩] ∧
      (r.ok = false → t.blk.rsp = some (.failure .transportError)) ∧
      (r.ok = true → t.blk.rsp = some (.success .nothing)) ∧
      (r.ok = true → s.env.dev.busyLeft = 0 → t.env.dev = { s.env.dev with wel := false })

/-- POLL (R133): one frame, the whole byte decides, and the two sentinels are the only legal bytes (R86). -/
def Obligations.PollAcceptsOnlySentinels : Prop :=
  ∀ (s : State) (h : Handle), s.accepting = true →
    let r := s.env.answer [0x08, 0x00]
    ∃ t, exec (.hostPoll h) s = .next t ∧ t.blk.seq = .idle ∧ t.env = s.env.after h [0x08, 0x00] ∧
      t.env.log = s.env.log ++ [⟨h, [0x08, 0x00]⟩] ∧
      (r.ok = false → t.blk.rsp = some (.failure .transportError)) ∧
      (r.ok = true → r.rx[1]? = some 0xFF → t.blk.rsp = some (.success (.byte 0xFF))) ∧
      (r.ok = true → r.rx[1]? = some 0x00 → t.blk.rsp = some (.success (.byte 0x00))) ∧
      (r.ok = true → r.rx[1]? ≠ some 0xFF → r.rx[1]? ≠ some 0x00 → t.blk.rsp = some (.failure .protocolError))

/-- The frames of the five single-frame operations, sent from `Idle`, do what the requests for them do (R21). That a frame is
an instruction of its own is the model's choice (log 17). -/
def Obligations.IdleFramesMatchRequests : Prop :=
  ∀ (s : State) (a : Addr) (n : Nat), s.accepting = true →
    ∀ i j, (i = .wireRead a n ∧ j = .hostRead s.blk.opH a n ∨ i = .wireRdsr ∧ j = .hostRdsr s.blk.opH ∨
        i = .wireWren ∧ j = .hostWren s.blk.opH ∨ i = .wireWrdi ∧ j = .hostWrdi s.blk.opH ∨
        i = .wireLpwp ∧ j = .hostPoll s.blk.opH) →
      ∃ t u, exec i s = .next t ∧ exec j s = .next u ∧ t.env = u.env ∧ t.host = u.host ∧ t.cfg = u.cfg ∧
        t.blk.seq = .idle ∧ u.blk.seq = .idle ∧ t.blk.rsp = u.blk.rsp ∧ t.blk.rxbuf = u.blk.rxbuf

/-- The frames the sequencer does not send from its state are refused by name: the data frame outside `LatchEnabled`, the
poll outside `Idle` and `Polling`, the READ outside `Idle` and `Verifying`, the others outside `Idle`, and every frame of a
single-frame operation in `Idle` while a response is pending (R150, R162, R222). The refusal is the model's choice (log 17). -/
def Obligations.OtherFramesAreRefused : Prop :=
  ∀ (s : State) (a : Addr) (d : Bytes) (n : Nat),
    (s.blk.seq ≠ .latchEnabled → exec (.wireWrite a d) s = .refused .frameNotSentHere) ∧
    (s.blk.seq ≠ .idle → s.blk.seq ≠ .verifying → exec (.wireRead a n) s = .refused .frameNotSentHere) ∧
    (s.blk.seq ≠ .idle → s.blk.seq ≠ .polling → exec .wireLpwp s = .refused .frameNotSentHere) ∧
    (s.blk.seq = .idle → s.accepting = false → exec (.wireRead a n) s = .refused .frameNotSentHere ∧
      exec .wireLpwp s = .refused .frameNotSentHere) ∧
    (s.accepting = false → exec .wireRdsr s = .refused .frameNotSentHere ∧
      exec .wireWren s = .refused .frameNotSentHere ∧ exec .wireWrdi s = .refused .frameNotSentHere)

/-- WRSR has no effect the source gives (R134, U11): no step sends a frame whose byte 0 is 0x01. That the instruction is
refused by name in every state is the model's choice (log 16). -/
def Obligations.WriteStatusIsNeverSent : Prop :=
  ∀ s : State, exec .wireWrsr s = .refused .wrsrNeverSent ∧
    ∀ t, step s = .next t → ∃ sent, t.env.log = s.env.log ++ sent ∧ ∀ c ∈ sent, c.tx.head? ≠ some 0x01

/-- Selectors 6 and 7 (R186): answered `IllegalRequest`, and nothing else happens. -/
def Obligations.IllegalSelectorsAnswered : Prop :=
  ∀ s : State, s.accepting = true →
    let t : State := { s with blk := { s.blk with seq := .idle, rsp := some (.failure .illegalRequest) } }
    exec .illegal6 s = .next t ∧ exec .illegal7 s = .next t

/-! ### Acceptance, steps, errors, reset -/

/-- A step runs the decoded request, or the frame the sequencer state sends; around it, the request leaves the port. -/
def Obligations.StepRunsDecodedInstruction : Prop :=
  (∀ (s : State) (r : Request) (rest : List Request) (i : Instr),
    s.host.resetLine = false → s.accepting = true → s.host.requests = r :: rest → decodeRequest r = .ok i →
    step s = exec i { s with host := { s.host with requests := rest } }) ∧
  (∀ s : State, s.host.resetLine = false →
    (s.blk.seq = .latchEnabled → step s = exec (.wireWrite s.blk.opAddr (s.blk.pbuf.take s.blk.opLen)) s) ∧
    (s.blk.seq = .polling → step s = exec .wireLpwp s) ∧
    (s.blk.seq = .verifying → step s = exec (.wireRead s.blk.opAddr s.blk.opLen) s))

/-- A request presented when the block is not ready is not accepted and has no effect, and it stays presented (R66). -/
def Obligations.RequestWaitsUntilIdle : Prop :=
  (∀ (s : State) (r : Request) (i : Instr), s.accepting = false → decodeRequest r = .ok i → exec i s = .next s) ∧
  (∀ s t : State, s.accepting = false → step s = .next t → t.host.requests = s.host.requests)

/-- The host takes the response, and only then is the next request accepted; with nothing to do the block waits (R222). That
the host takes it in the next step is the model's choice (log 6). -/
def Obligations.HostTakesResponse : Prop :=
  ∀ s : State, s.host.resetLine = false → s.blk.seq = .idle →
    (∀ r, s.blk.rsp = some r → step s = .next { s with
      blk := { s.blk with rsp := none }, host := { s.host with received := s.host.received ++ [r] } }) ∧
    (s.blk.rsp = none → s.host.requests = [] → step s = .next s)

/-- `raise <Kind>` does exactly this (R190). -/
def Obligations.RaiseDoesExactlyThis : Prop :=
  ∀ (k : ErrorKind) (s : State),
    raise k s = { s with blk := { s.blk with seq := .idle, rsp := some (.failure k) } }

/-- Which operation can end with which kind (R187), by the state the failing step starts in. -/
def Obligations.ErrorKindsByOperation : Prop :=
  ∀ (s t : State) (k : ErrorKind), s.host.resetLine = false → s.blk.rsp = none → step s = .next t →
    t.blk.rsp = some (.failure k) →
    t.blk.seq = .idle ∧
    ((∃ r rest, s.blk.seq = .idle ∧ s.host.requests = r :: rest ∧
        ((∃ h a n, decodeRequest r = .ok (.hostRead h a n) ∧ (k = .transportError ∨ k = .boundsError)) ∨
         (∃ h a d v, decodeRequest r = .ok (.hostWrite h a d v) ∧ (k = .transportError ∨ k = .boundsError)) ∨
         (∃ h, decodeRequest r = .ok (.hostRdsr h) ∧ k = .transportError) ∨
         (∃ h, decodeRequest r = .ok (.hostWren h) ∧ k = .transportError) ∨
         (∃ h, decodeRequest r = .ok (.hostWrdi h) ∧ k = .transportError) ∨
         (∃ h, decodeRequest r = .ok (.hostPoll h) ∧ (k = .transportError ∨ k = .protocolError)) ∨
         ((decodeRequest r = .ok .illegal6 ∨ decodeRequest r = .ok .illegal7) ∧ k = .illegalRequest))) ∨
     (s.blk.seq = .latchEnabled ∧ k = .transportError) ∨
     (s.blk.seq = .polling ∧
        (k = .transportError ∨ k = .protocolError ∨ k = .timeout ∧ s.cfg.pollMax ≠ none)) ∨
     (s.blk.seq = .verifying ∧ (k = .transportError ∨ k = .verificationError)))

/-- A step makes at most one call of the transport, and the call is the last thing recorded (R61). The environment is as the
call leaves it, but where the answer of a poll ends the poll loop of a WRITE: there it also says what that answer shows about
the device (R160, log 24). -/
def Obligations.AtMostOneCallPerStep : Prop :=
  ∀ s t : State, step s = .next t → t.env = s.env ∨ ∃ h tx,
    let r := s.env.answer tx
    let e := s.env.after h tx
    t.env.log = s.env.log ++ [⟨h, tx⟩] ∧ t.env.calls = s.env.calls + 1 ∧ t.blk.txbuf = tx ∧ t.blk.rxbuf = r.rx ∧
    (s.blk.seq ≠ .polling ∨ r.ok = false → t.env = e) ∧
    (s.blk.seq = .polling → r.ok = true →
      (t.blk.seq = .polling ∧ t.env = e) ∨
      ((t.blk.seq = .verifying ∧ s.blk.opVerify = true ∨ t.blk.seq = .done ∧ s.blk.opVerify = false) ∧
        t.env = e.endLoop (.written s.blk.opVerify)) ∨
      (t.blk.seq = .idle ∧ t.blk.rsp = some (.failure .timeout) ∧ t.env = e.endLoop .stillBusy) ∨
      (t.blk.seq = .idle ∧ t.blk.rsp = some (.failure .protocolError) ∧ t.env = e.endLoop .unknown))

/-- From a safe state every frame a step sends is a frame of the command set, and none is WRSR (R87). -/
def Obligations.SentFramesAreCommands : Prop :=
  ∀ s t : State, Inv s → step s = .next t → ∃ sent, t.env.log = s.env.log ++ sent ∧
    ∀ c ∈ sent, ∃ i, decodeFrame s.cfg c.tx = .ok i ∧ i ≠ .wireWrsr ∧ i.wf s.cfg = true

/-- The sequencer never sends the write-disable frame, on no path (R132, R161): a step that sends it accepts a request for
WRDI. -/
def Obligations.OnlyTheHostDisablesWrites : Prop :=
  ∀ (s t : State) (h : Handle) (tx : Bytes), step s = .next t → t.env.log = s.env.log ++ [⟨h, tx⟩] →
    tx.head? = some 0x04 →
    s.accepting = true ∧ ∃ r rest, s.host.requests = r :: rest ∧ decodeRequest r = .ok (.hostWrdi h) ∧ tx = [0x04]

/-- No step changes a parameter (R27). -/
def Obligations.ParametersAreFixed : Prop :=
  (∀ s t : State, step s = .next t → t.cfg = s.cfg) ∧
  (∀ (i : Instr) (s t : State), exec i s = .next t → t.cfg = s.cfg)

/-- A reset puts `Idle`, leaves nothing pending, abandons an operation without a response, sends nothing and leaves the
device as it is (R210, R211). That a set reset input acts in the next step, is released by it and keeps the host's lists is
the model's choice (log 13). -/
def Obligations.ResetAbandonsOperation : Prop :=
  ∀ s : State, s.host.resetLine = true → ∃ t, step s = .next t ∧ t.blk.seq = .idle ∧ t.blk.rsp = none ∧ t.env = s.env ∧
    t.cfg = s.cfg ∧ t.host.requests = s.host.requests ∧ t.host.received = s.host.received ∧ t.host.resetLine = false

/-- Right after reset the block is `Idle` with nothing pending and no call made, at the reference parameters (R33, R5). That
the parameters are those, and the log empty, is the model's choice (log 3, log 4). -/
def Obligations.ResetState : Prop :=
  State.reset.blk.seq = .idle ∧ State.reset.blk.rsp = none ∧ State.reset.env.calls = 0 ∧ State.reset.env.log = [] ∧
    State.reset.cfg = { rowBits := 8, maxRead := 256, pollMax := none } ∧ State.reset.accepting = true

/-- Every step keeps the invariant. -/
def Obligations.StepKeepsInvariant : Prop :=
  ∀ s t : State, Inv s → step s = .next t → Inv t

/-- The invariant holds right after reset. -/
def Obligations.ResetMeetsInvariant : Prop := Inv State.reset

/-- From every state a step answers a next state, but where the record on the request port is no request (R88): the payload
of a WRITE has another length than the record says. No step is refused. The fault is the model's choice (log 18). -/
def Obligations.StepsStopOnlyOnMalformedRequest : Prop :=
  ∀ s : State, (∀ x, step s ≠ .refused x) ∧ (step s = .fault .malformedRequest ↔ s.host.resetLine = false ∧ s.accepting = true ∧
    ∃ r rest, s.host.requests = r :: rest ∧ r.op = 1 ∧ r.data.length ≠ r.len)

/-- Between operations the block holds no information: runs from states that agree on what is live agree on everything
the host and the transport see, for every number of steps (R20, R34). -/
def Obligations.DeadRegistersDoNotMatter : Prop :=
  ∀ (k : Nat) (s t s' : State), LiveEq s t → runSteps k s = .next s' → ∃ t', runSteps k t = .next t' ∧ LiveEq s' t'

/-! ### Frames of the instructions -/

/-- Registers, ports and parameters the instructions leave alone. Which latches an acceptance writes is read from R22
(log 14); that a frame is an instruction of its own is the model's choice (log 17). -/
def Obligations.RegistersLeftUnchanged : Prop :=
  (∀ (s t : State) (h : Handle) (i : Instr) (op : HostOp), s.accepting = true →
    (i = .hostRdsr h ∧ op = .rdsr ∨ i = .hostWren h ∧ op = .wren ∨ i = .hostWrdi h ∧ op = .wrdi ∨
      i = .hostPoll h ∧ op = .poll) → exec i s = .next t →
    t.cfg = s.cfg ∧ t.host = s.host ∧ t.blk.opSel = op ∧ t.blk.opH = h ∧ t.blk.opAddr = s.blk.opAddr ∧
      t.blk.opLen = s.blk.opLen ∧ t.blk.opVerify = s.blk.opVerify ∧ t.blk.pbuf = s.blk.pbuf ∧
      t.blk.pollCount = s.blk.pollCount) ∧
  (∀ (s t : State) (h : Handle) (a : Addr) (n : Nat), s.accepting = true → exec (.hostRead h a n) s = .next t →
    t.cfg = s.cfg ∧ t.host = s.host ∧ t.blk.opSel = .read ∧ t.blk.opH = h ∧ t.blk.opAddr = a ∧ t.blk.opLen = n ∧
      t.blk.opVerify = s.blk.opVerify ∧ t.blk.pbuf = s.blk.pbuf ∧ t.blk.pollCount = s.blk.pollCount) ∧
  (∀ (s t : State) (h : Handle) (a : Addr) (d : Bytes) (v : Bool), s.accepting = true →
    exec (.hostWrite h a d v) s = .next t →
    t.cfg = s.cfg ∧ t.host = s.host ∧ t.blk.opSel = .write ∧ t.blk.opH = h ∧ t.blk.opAddr = a ∧
      t.blk.opLen = d.length ∧ t.blk.opVerify = v ∧ t.blk.pollCount = s.blk.pollCount ∧
      t.blk.pbuf.drop d.length = s.blk.pbuf.drop d.length) ∧
  (∀ (s t : State) (i : Instr), i = .wireRdsr ∨ i = .wireWren ∨ i = .wireWrdi ∨ i = .wireLpwp ∨
      (∃ a n, i = .wireRead a n) ∨ (∃ a d, i = .wireWrite a d) → exec i s = .next t →
    t.cfg = s.cfg ∧ t.host = s.host ∧ t.blk.opSel = s.blk.opSel ∧ t.blk.opH = s.blk.opH ∧ t.blk.opAddr = s.blk.opAddr ∧
      t.blk.opLen = s.blk.opLen ∧ t.blk.opVerify = s.blk.opVerify ∧ t.blk.pbuf = s.blk.pbuf ∧
      (i ≠ .wireLpwp ∨ s.blk.seq = .idle → t.blk.pollCount = s.blk.pollCount))

/-- No instruction but the data frame and the poll stores to device memory, and none but the write commands and the poll
changes the latch: every byte reads as before, and a READ or an RDSR changes nothing at all in the device, the read-back
included (R58). That WREN and WRDI leave memory and the busy time alone also when they fail or meet a busy device is the
model's choice (log 9), and so is when a poll shows the end of a write. -/
def Obligations.OtherInstructionsStoreNothing : Prop :=
  ∀ (s t : State) (i : Instr), exec i s = .next t →
    ((∀ a d, i ≠ .wireWrite a d) → (∀ h, i ≠ .hostPoll h) → i ≠ .wireLpwp →
      (∀ x, memRead t.env.dev.mem x = memRead s.env.dev.mem x) ∧ t.env.dev.busyLeft = s.env.dev.busyLeft) ∧
    ((∃ h, i = .hostRdsr h) ∨ (∃ h a n, i = .hostRead h a n) ∨ i = .wireRdsr ∨ (∃ a n, i = .wireRead a n) ∨
      i = .illegal6 ∨ i = .illegal7 → t.env.dev = s.env.dev) ∧
    (s.env.dev.busyLeft = 0 → (∃ h, i = .hostPoll h) ∨ i = .wireLpwp ∧ s.blk.seq = .idle → t.env.dev = s.env.dev)

/-- The data frame changes no byte outside the `len(payload)` bytes from its address on (R52, R114), a poll none outside
those of the last data frame (R30), and a READ none at all (R58). U13 does not promise it of the first two; it is the model's
choice (log 11, log 24). -/
def Obligations.StoresStayInTheAddressedRange : Prop :=
  (∀ (s t : State) (a : Addr) (d : Bytes) (x : Nat), Memory.wf s.env.dev.mem = true →
    exec (.wireWrite a d) s = .next t → ¬ StoredTo s.env a.toNat d.length x →
    memRead t.env.dev.mem x = memRead s.env.dev.mem x) ∧
  (∀ (s t : State) (i : Instr) (x : Nat), Memory.wf s.env.dev.mem = true → (i = .wireLpwp ∨ ∃ h, i = .hostPoll h) →
    exec i s = .next t → (∀ f, s.env.dev.lastData = some f → ¬ StoredTo s.env f.addr f.payload.length x) →
    memRead t.env.dev.mem x = memRead s.env.dev.mem x) ∧
  (∀ (s t : State) (a : Addr) (n x : Nat), exec (.wireRead a n) s = .next t →
    memRead t.env.dev.mem x = memRead s.env.dev.mem x)

/-! ### The transport and the device -/

/-- The transport contract (R68): the response is as long as the frame, failed or not, and a call is one call. -/
def Obligations.ResponseHasFrameLength : Prop :=
  ∀ (e : Env) (h : Handle) (tx : Bytes), (e.answer tx).rx.length = tx.length ∧ (e.after h tx).calls = e.calls + 1 ∧
    (e.after h tx).log = e.log ++ [⟨h, tx⟩]

/-- The unconstrained transport may answer any `ok` with any byte sequence of the frame's length (R69): the model's stream of
answers can hold it (log 8). -/
def Obligations.UnconstrainedTransportAnswersAnything : Prop :=
  ∀ (e : Env) (h : Handle) (tx rx : Bytes) (ok : Bool) (more : List Answer),
    e.transport = .unconstrained → rx.length = tx.length →
    let e' : Env := { e with answers := ⟨ok, rx⟩ :: more }
    e'.answer tx = ⟨ok, rx⟩ ∧ (e'.after h tx).answers = more

/-- Response bytes in the positions the block discards do not matter (R85): two answers that agree on the bytes the command
uses, or that both failed, lead to the same block, but for the response buffer, and to the same device. -/
def Obligations.DiscardedBytesDoNotMatter : Prop :=
  ∀ (s : State) (more : List Answer) (ok : Bool) (r1 r2 : Bytes) (i : Instr) (t1 t2 : State),
    s.env.transport = .unconstrained → (ok = true → UsedBytesAgree i r1 r2) →
    exec i { s with env := { s.env with answers := ⟨ok, r1⟩ :: more } } = .next t1 →
    exec i { s with env := { s.env with answers := ⟨ok, r2⟩ :: more } } = .next t2 →
    t1.blk = { t2.blk with rxbuf := t1.blk.rxbuf } ∧ t1.host = t2.host ∧ t1.cfg = t2.cfg ∧
      t1.env.dev = t2.env.dev ∧ t1.env.log = t2.env.log ∧ t1.env.calls = t2.env.calls

/-- What sets and clears the write-enable latch of the device behind the unconstrained transport (R29, R215): the frames when
they reach an idle device, and the end of an internal write that no WREN and no data frame met; on an idle device no other frame changes
anything, and neither does a poll that is not answered `IDLE` (R58). When the source's events happen is the model's choice
(log 9). -/
def Obligations.LatchEventsOfTheDevice : Prop :=
  ∀ (e : Env) (h : Handle), e.transport = .unconstrained →
    (e.dev.busyLeft = 0 → (e.answer [0x06]).ok = true → (e.after h [0x06]).dev.wel = true) ∧
    (e.dev.busyLeft = 0 → (e.answer [0x04]).ok = true → (e.after h [0x04]).dev.wel = false) ∧
    (0 < e.dev.busyLeft → (e.answer [0x08, 0x00]).ok = true → (e.answer [0x08, 0x00]).rx[1]? = some 0x00 →
      (e.dev.latchOpen = false → (e.after h [0x08, 0x00]).dev.wel = false) ∧ (e.after h [0x08, 0x00]).dev.busyLeft = 0) ∧
    (∀ a d, d ≠ [] → e.dev.busyLeft = 0 → e.dev.wel = true → (e.answer (dataFrame a d)).ok = true →
      0 < (e.after h (dataFrame a d)).dev.busyLeft) ∧
    (∀ a d, d ≠ [] → 0 < e.dev.busyLeft →
      (e.after h [0x06]).dev.latchOpen = true ∧ (e.after h (dataFrame a d)).dev.latchOpen = true) ∧
    (∀ tx : Bytes, e.dev.busyLeft = 0 → tx.head? ≠ some 0x02 → tx.head? ≠ some 0x04 → tx.head? ≠ some 0x06 →
      (e.after h tx).dev = e.dev) ∧
    ((e.answer [0x08, 0x00]).ok = false ∨ (e.answer [0x08, 0x00]).rx[1]? ≠ some 0x00 →
      (e.after h [0x08, 0x00]).dev = e.dev)

/-- What each error exit of a WRITE leaves in the device behind the unconstrained transport (the table of R160), first by the
function of R163 and then by the steps. That no byte outside the addressed range changes is the model's choice (log 11), and so
are the free values of the latch after a failed frame (log 9), the device being as before a poll that failed, where R160 says
"unknown" (log 9, unsafe), and, after `Timeout` and `ProtocolError`, the memory as the data frame left it, the payload no
longer expected there, and the free values, with `latchOpen` after `ProtocolError` (log 24). That the read-back shows what was stored is DEDUCED (log 24). -/
def Obligations.DeviceAfterErrorExits : Prop :=
  (∀ (c : Config) (fuel : Nat) (h : Handle) (a : Addr) (d : Bytes) (v : Bool) (e e' : Env) (k : ErrorKind),
    e.transport = .unconstrained → Memory.wf e.dev.mem = true → writeFunction c fuel h a d v e = some (.failure k, e') →
    let n := e'.calls - e.calls
    let there (i : Nat) : Prop := i < d.length ∧ a.toNat + i < e.setup.devSize ∧ a.toNat + i < 2 ^ 24
    (∀ x, x < a.toNat ∨ a.toNat + d.length ≤ x → memRead e'.dev.mem x = memRead e.dev.mem x) ∧
    (k = .boundsError → e' = e) ∧
    (k = .transportError → n = 1 → e'.dev.mem = e.dev.mem ∧ e'.dev.busyLeft = e.dev.busyLeft ∧
      e'.dev.wel = Config.freeLatch e.calls) ∧
    (k = .transportError → n = 2 → e'.dev.lastData = none ∧ e'.dev.wel = Config.freeLatch (e.calls + 1)) ∧
    (k = .timeout → 0 < e'.dev.busyLeft ∧ e'.dev.lastData = none) ∧
    (k = .protocolError → e'.dev.lastData = none ∧ e'.dev.wel = Config.freeLatch (e'.calls - 1) ∧
      e'.dev.busyLeft = Config.freeBusy (e'.calls - 1) ∧ e'.dev.latchOpen = true) ∧
    (k = .transportError → e'.log.getLast? = some ⟨h, readFrame a d.length⟩ →
      (∀ i, there i → some (memRead e'.dev.mem (a.toNat + i)) = d[i]?) ∧ e'.dev.wel = false ∧ e'.dev.busyLeft = 0) ∧
    (k = .verificationError →
      (∃ sent r, e'.log = e.log ++ sent ∧ (answersTo e sent).getLast? = some r ∧ (r.rx.drop 4).take d.length ≠ d ∧
        ∀ i, there i → some (memRead e'.dev.mem (a.toNat + i)) = r.rx[4 + i]?) ∧
      (a.toNat + d.length ≤ e.setup.devSize → a.toNat + d.length ≤ 2 ^ 24 →
        ∃ i < d.length, some (memRead e'.dev.mem (a.toNat + i)) ≠ d[i]?) ∧
      e'.dev.wel = false ∧ e'.dev.busyLeft = 0)) ∧
  (∀ s t : State, s.host.resetLine = false → s.env.transport = .unconstrained → s.blk.rsp = none → step s = .next t →
    (s.blk.seq = .polling → t.blk.rsp = some (.failure .transportError) → t.env.dev = s.env.dev) ∧
    (s.blk.seq = .polling → t.blk.rsp = some (.failure .timeout) →
      0 < t.env.dev.busyLeft ∧ t.env.dev.lastData = none ∧ t.env.dev.mem = s.env.dev.mem) ∧
    (s.blk.seq = .polling → t.blk.rsp = some (.failure .protocolError) →
      t.env.dev.lastData = none ∧ t.env.dev.mem = s.env.dev.mem) ∧
    (s.blk.seq = .verifying → t.env.dev = s.env.dev))

/-- A WRITE that ends in `Success` behind the unconstrained transport has stored `payload[i]` at `A + i` wherever the device
has that address, changed no other byte, and left the latch clear and the device idle, whatever state it found the device in
(R28, R29, R52, R161). That nothing else changes is the model's choice (log 11), and so is the account of the device (log 9,
log 24). -/
def Obligations.SuccessfulWriteStoresPayload : Prop :=
  ∀ (c : Config) (fuel : Nat) (h : Handle) (a : Addr) (d : Bytes) (v : Bool) (e e' : Env),
    e.transport = .unconstrained → Memory.wf e.dev.mem = true →
    writeFunction c fuel h a d v e = some (.success .nothing, e') →
    (∀ i, ∀ hi : i < d.length, a.toNat + i < e.setup.devSize → a.toNat + i < 2 ^ 24 →
      memRead e'.dev.mem (a.toNat + i) = d[i]) ∧
    (∀ x, x < a.toNat ∨ a.toNat + d.length ≤ x → memRead e'.dev.mem x = memRead e.dev.mem x) ∧
    e'.dev.wel = false ∧ e'.dev.busyLeft = 0

/-- The round-trip law against the reference stub (R63): WRITE and then READ of the same range return the identical bytes,
for every payload that stays in one row, every content of memory and every time the stub is busy that the poll bound allows. -/
def Obligations.RoundTripAgainstStub : Prop :=
  ∀ (s : State) (h : Handle) (a : Addr) (d : Bytes) (v : Bool) (rest : List Request),
    s.host.resetLine = false → s.accepting = true → s.cfg.wf = true → SameRow s.cfg a d.length →
    s.env.transport = .stub → s.env.setup.failAt = [] → s.env.setup.pollScript = none → s.env.setup.corrupt = none →
    s.env.dev.busyLeft = 0 → Memory.wf s.env.dev.mem = true →
    (∀ n, s.cfg.pollMax = some n → s.env.setup.busyPolls < n) →
    s.host.requests =
      { op := 1, h := h, addr := a, len := d.length, verify := v, data := d } ::
      { op := 0, h := h, addr := a, len := d.length, verify := false, data := [] } :: rest →
    ∃ k t, runSteps k s = .next t ∧
      t.host.received = s.host.received ++ [.success .nothing, .success (.data d)] ∧ t.host.requests = rest ∧
      t.accepting = true

/-- The stub's failing calls (R71): `ok = 0`, the poison byte everywhere, and nothing changes but the count and the log. -/
def Obligations.StubFailingCall : Prop :=
  ∀ (e : Env) (h : Handle) (tx : Bytes), e.transport = .stub → e.calls + 1 ∈ e.setup.failAt →
    e.answer tx = ⟨false, List.replicate tx.length 0xA5⟩ ∧
    e.after h tx = { e with calls := e.calls + 1, log := e.log ++ [⟨h, tx⟩] }

/-- The stub on WREN and WRDI frames (R72, R73). -/
def Obligations.StubLatchFrames : Prop :=
  ∀ (e : Env) (h : Handle), e.transport = .stub → e.calls + 1 ∉ e.setup.failAt →
    e.answer [0x06] = ⟨true, [0xA5]⟩ ∧ e.answer [0x04] = ⟨true, [0xA5]⟩ ∧
    (e.after h [0x06]).dev = (if 0 < e.dev.busyLeft then e.dev else { e.dev with wel := true }) ∧
    (e.after h [0x04]).dev = (if 0 < e.dev.busyLeft then e.dev else { e.dev with wel := false })

/-- The stub on RDSR and LPWP frames (R74, R75), and its variant `poll_script` (R78, as log 22 reads it). -/
def Obligations.StubStatusFrames : Prop :=
  ∀ (e : Env) (h : Handle) (x : Byte), e.transport = .stub → e.calls + 1 ∉ e.setup.failAt →
    e.answer [0x05, x] = ⟨true, [0xA5, if 0 < e.dev.busyLeft then 0xFF else 0x00]⟩ ∧
    (e.after h [0x05, x]).dev = e.dev ∧
    (e.setup.pollScript = none →
      e.answer [0x08, x] = ⟨true, [0xA5, if 0 < e.dev.busyLeft then 0xFF else 0x00]⟩ ∧
      (e.after h [0x08, x]).dev = { e.dev with busyLeft := e.dev.busyLeft - 1 }) ∧
    (∀ b more, e.setup.pollScript = some (b :: more) →
      e.answer [0x08, x] = ⟨true, [0xA5, b]⟩ ∧ (e.after h [0x08, x]).setup.pollScript = some more) ∧
    (e.setup.pollScript = some [] → e.answer [0x08, x] = ⟨true, [0xA5, 0x00]⟩)

/-- The stub on a data frame (R76), with its variant `corrupt` (R78, as log 22 reads it: on every store at that address): what
it stores, and when it ignores the frame. -/
def Obligations.StubStoresDataFrame : Prop :=
  ∀ (e : Env) (h : Handle) (a0 a1 a2 : Byte) (d : Bytes),
    e.transport = .stub → e.calls + 1 ∉ e.setup.failAt → Memory.wf e.dev.mem = true → 1 ≤ d.length →
    let tx := 0x02 :: a0 :: a1 :: a2 :: d
    let a := a0.toNat + 256 * a1.toNat + 65536 * a2.toNat
    e.answer tx = ⟨true, List.replicate tx.length 0xA5⟩ ∧
    (e.dev.wel = false ∨ 0 < e.dev.busyLeft → (e.after h tx).dev = e.dev) ∧
    (e.dev.wel = true → e.dev.busyLeft = 0 →
      (e.after h tx).dev.wel = false ∧ (e.after h tx).dev.busyLeft = e.setup.busyPolls ∧
      (d.length ≤ 2 ^ 24 → ∀ i, ∀ hi : i < d.length,
        memRead (e.after h tx).dev.mem ((a + i) % 2 ^ 24) =
          match e.setup.corrupt with
          | none => d[i]
          | some (c, b) => if (a + i) % 2 ^ 24 = c.toNat then b else d[i]) ∧
      (∀ x, (∀ i < d.length, (a + i) % 2 ^ 24 ≠ x) → memRead (e.after h tx).dev.mem x = memRead e.dev.mem x))

/-- The stub on a READ frame (R77), and on every frame it does not know (R78). -/
def Obligations.StubReadsAndIgnores : Prop :=
  ∀ (e : Env) (h : Handle), e.transport = .stub → e.calls + 1 ∉ e.setup.failAt →
    (∀ (a0 a1 a2 : Byte) (pad : Bytes),
      let tx := 0x03 :: a0 :: a1 :: a2 :: pad
      let a := a0.toNat + 256 * a1.toNat + 65536 * a2.toNat
      (e.answer tx).ok = true ∧ (e.answer tx).rx.take 4 = [0xA5, 0xA5, 0xA5, 0xA5] ∧ (e.after h tx).dev = e.dev ∧
      ∀ i < pad.length, (e.answer tx).rx[4 + i]? =
        some (if 0 < e.dev.busyLeft then 0xA5 else memRead e.dev.mem ((a + i) % 2 ^ 24))) ∧
    (∀ tx : Bytes, tx ≠ [0x06] → tx ≠ [0x04] → (∀ x, tx ≠ [0x05, x]) → (∀ x, tx ≠ [0x08, x]) →
      (∀ a0 a1 a2 x d, tx ≠ 0x02 :: a0 :: a1 :: a2 :: x :: d) → (∀ a0 a1 a2 d, tx ≠ 0x03 :: a0 :: a1 :: a2 :: d) →
      e.answer tx = ⟨true, List.replicate tx.length 0xA5⟩ ∧ (e.after h tx).dev = e.dev)

/-! ### Memory -/

/-- Equal contents are equal data: two memories in canonical form that read alike at every address are the same list (R28:
the array is one byte per address; the form is the model's). -/
def Obligations.CanonicalMemoriesThatReadAlikeAreEqual : Prop :=
  ∀ m m' : Memory, Memory.wf m = true → Memory.wf m' = true → (∀ a, memRead m a = memRead m' a) → m = m'
end

