-- ==== Sys2Proof/Laws/State.lean ====
section
/-! SUPPORT. One lemma per field per update of State. -/

namespace Sys2Proof.Machine

section
variable (q : SeqState) (s : State)

@[simp] theorem setSeq_cfg : (setSeq q s).cfg = s.cfg := rfl
@[simp] theorem setSeq_host : (setSeq q s).host = s.host := rfl
@[simp] theorem setSeq_env : (setSeq q s).env = s.env := rfl
@[simp] theorem setSeq_seq : (setSeq q s).blk.seq = q := rfl
@[simp] theorem setSeq_opSel : (setSeq q s).blk.opSel = s.blk.opSel := rfl
@[simp] theorem setSeq_opH : (setSeq q s).blk.opH = s.blk.opH := rfl
@[simp] theorem setSeq_opAddr : (setSeq q s).blk.opAddr = s.blk.opAddr := rfl
@[simp] theorem setSeq_opLen : (setSeq q s).blk.opLen = s.blk.opLen := rfl
@[simp] theorem setSeq_opVerify : (setSeq q s).blk.opVerify = s.blk.opVerify := rfl
@[simp] theorem setSeq_pbuf : (setSeq q s).blk.pbuf = s.blk.pbuf := rfl
@[simp] theorem setSeq_txbuf : (setSeq q s).blk.txbuf = s.blk.txbuf := rfl
@[simp] theorem setSeq_rxbuf : (setSeq q s).blk.rxbuf = s.blk.rxbuf := rfl
@[simp] theorem setSeq_pollCount : (setSeq q s).blk.pollCount = s.blk.pollCount := rfl
@[simp] theorem setSeq_rsp : (setSeq q s).blk.rsp = s.blk.rsp := rfl

end

section
variable (r : Response) (s : State)

@[simp] theorem respond_cfg : (respond r s).cfg = s.cfg := rfl
@[simp] theorem respond_host : (respond r s).host = s.host := rfl
@[simp] theorem respond_env : (respond r s).env = s.env := rfl
@[simp] theorem respond_seq : (respond r s).blk.seq = .idle := rfl
@[simp] theorem respond_opSel : (respond r s).blk.opSel = s.blk.opSel := rfl
@[simp] theorem respond_opH : (respond r s).blk.opH = s.blk.opH := rfl
@[simp] theorem respond_opAddr : (respond r s).blk.opAddr = s.blk.opAddr := rfl
@[simp] theorem respond_opLen : (respond r s).blk.opLen = s.blk.opLen := rfl
@[simp] theorem respond_opVerify : (respond r s).blk.opVerify = s.blk.opVerify := rfl
@[simp] theorem respond_pbuf : (respond r s).blk.pbuf = s.blk.pbuf := rfl
@[simp] theorem respond_txbuf : (respond r s).blk.txbuf = s.blk.txbuf := rfl
@[simp] theorem respond_rxbuf : (respond r s).blk.rxbuf = s.blk.rxbuf := rfl
@[simp] theorem respond_pollCount : (respond r s).blk.pollCount = s.blk.pollCount := rfl
@[simp] theorem respond_rsp : (respond r s).blk.rsp = some r := rfl

end

section
variable (op : HostOp) (h : Handle) (s : State)

@[simp] theorem latchOp_cfg : (latchOp op h s).cfg = s.cfg := rfl
@[simp] theorem latchOp_host : (latchOp op h s).host = s.host := rfl
@[simp] theorem latchOp_env : (latchOp op h s).env = s.env := rfl
@[simp] theorem latchOp_seq : (latchOp op h s).blk.seq = s.blk.seq := rfl
@[simp] theorem latchOp_opSel : (latchOp op h s).blk.opSel = op := rfl
@[simp] theorem latchOp_opH : (latchOp op h s).blk.opH = h := rfl
@[simp] theorem latchOp_opAddr : (latchOp op h s).blk.opAddr = s.blk.opAddr := rfl
@[simp] theorem latchOp_opLen : (latchOp op h s).blk.opLen = s.blk.opLen := rfl
@[simp] theorem latchOp_opVerify : (latchOp op h s).blk.opVerify = s.blk.opVerify := rfl
@[simp] theorem latchOp_pbuf : (latchOp op h s).blk.pbuf = s.blk.pbuf := rfl
@[simp] theorem latchOp_txbuf : (latchOp op h s).blk.txbuf = s.blk.txbuf := rfl
@[simp] theorem latchOp_rxbuf : (latchOp op h s).blk.rxbuf = s.blk.rxbuf := rfl
@[simp] theorem latchOp_pollCount : (latchOp op h s).blk.pollCount = s.blk.pollCount := rfl
@[simp] theorem latchOp_rsp : (latchOp op h s).blk.rsp = s.blk.rsp := rfl

end

section
variable (h : Handle) (a : Addr) (n : Nat) (s : State)

@[simp] theorem latchRead_cfg : (latchRead h a n s).cfg = s.cfg := rfl
@[simp] theorem latchRead_host : (latchRead h a n s).host = s.host := rfl
@[simp] theorem latchRead_env : (latchRead h a n s).env = s.env := rfl
@[simp] theorem latchRead_seq : (latchRead h a n s).blk.seq = s.blk.seq := rfl
@[simp] theorem latchRead_opSel : (latchRead h a n s).blk.opSel = .read := rfl
@[simp] theorem latchRead_opH : (latchRead h a n s).blk.opH = h := rfl
@[simp] theorem latchRead_opAddr : (latchRead h a n s).blk.opAddr = a := rfl
@[simp] theorem latchRead_opLen : (latchRead h a n s).blk.opLen = n := rfl
@[simp] theorem latchRead_opVerify : (latchRead h a n s).blk.opVerify = s.blk.opVerify := rfl
@[simp] theorem latchRead_pbuf : (latchRead h a n s).blk.pbuf = s.blk.pbuf := rfl
@[simp] theorem latchRead_txbuf : (latchRead h a n s).blk.txbuf = s.blk.txbuf := rfl
@[simp] theorem latchRead_rxbuf : (latchRead h a n s).blk.rxbuf = s.blk.rxbuf := rfl
@[simp] theorem latchRead_pollCount : (latchRead h a n s).blk.pollCount = s.blk.pollCount := rfl
@[simp] theorem latchRead_rsp : (latchRead h a n s).blk.rsp = s.blk.rsp := rfl

end

section
variable (h : Handle) (a : Addr) (n : Nat) (v : Bool) (s : State)

@[simp] theorem latchWrite_cfg : (latchWrite h a n v s).cfg = s.cfg := rfl
@[simp] theorem latchWrite_host : (latchWrite h a n v s).host = s.host := rfl
@[simp] theorem latchWrite_env : (latchWrite h a n v s).env = s.env := rfl
@[simp] theorem latchWrite_seq : (latchWrite h a n v s).blk.seq = s.blk.seq := rfl
@[simp] theorem latchWrite_opSel : (latchWrite h a n v s).blk.opSel = .write := rfl
@[simp] theorem latchWrite_opH : (latchWrite h a n v s).blk.opH = h := rfl
@[simp] theorem latchWrite_opAddr : (latchWrite h a n v s).blk.opAddr = a := rfl
@[simp] theorem latchWrite_opLen : (latchWrite h a n v s).blk.opLen = n := rfl
@[simp] theorem latchWrite_opVerify : (latchWrite h a n v s).blk.opVerify = v := rfl
@[simp] theorem latchWrite_pbuf : (latchWrite h a n v s).blk.pbuf = s.blk.pbuf := rfl
@[simp] theorem latchWrite_txbuf : (latchWrite h a n v s).blk.txbuf = s.blk.txbuf := rfl
@[simp] theorem latchWrite_rxbuf : (latchWrite h a n v s).blk.rxbuf = s.blk.rxbuf := rfl
@[simp] theorem latchWrite_pollCount : (latchWrite h a n v s).blk.pollCount = s.blk.pollCount := rfl
@[simp] theorem latchWrite_rsp : (latchWrite h a n v s).blk.rsp = s.blk.rsp := rfl

end

section
variable (p : Bytes) (s : State)

@[simp] theorem loadPayload_cfg : (loadPayload p s).cfg = s.cfg := rfl
@[simp] theorem loadPayload_host : (loadPayload p s).host = s.host := rfl
@[simp] theorem loadPayload_env : (loadPayload p s).env = s.env := rfl
@[simp] theorem loadPayload_seq : (loadPayload p s).blk.seq = s.blk.seq := rfl
@[simp] theorem loadPayload_opSel : (loadPayload p s).blk.opSel = s.blk.opSel := rfl
@[simp] theorem loadPayload_opH : (loadPayload p s).blk.opH = s.blk.opH := rfl
@[simp] theorem loadPayload_opAddr : (loadPayload p s).blk.opAddr = s.blk.opAddr := rfl
@[simp] theorem loadPayload_opLen : (loadPayload p s).blk.opLen = s.blk.opLen := rfl
@[simp] theorem loadPayload_opVerify : (loadPayload p s).blk.opVerify = s.blk.opVerify := rfl
@[simp] theorem loadPayload_pbuf : (loadPayload p s).blk.pbuf = p ++ s.blk.pbuf.drop p.length := rfl
@[simp] theorem loadPayload_txbuf : (loadPayload p s).blk.txbuf = s.blk.txbuf := rfl
@[simp] theorem loadPayload_rxbuf : (loadPayload p s).blk.rxbuf = s.blk.rxbuf := rfl
@[simp] theorem loadPayload_pollCount : (loadPayload p s).blk.pollCount = s.blk.pollCount := rfl
@[simp] theorem loadPayload_rsp : (loadPayload p s).blk.rsp = s.blk.rsp := rfl

end

section
variable (s : State)

@[simp] theorem countPoll_cfg : (countPoll s).cfg = s.cfg := rfl
@[simp] theorem countPoll_host : (countPoll s).host = s.host := rfl
@[simp] theorem countPoll_env : (countPoll s).env = s.env := rfl
@[simp] theorem countPoll_seq : (countPoll s).blk.seq = s.blk.seq := rfl
@[simp] theorem countPoll_opSel : (countPoll s).blk.opSel = s.blk.opSel := rfl
@[simp] theorem countPoll_opH : (countPoll s).blk.opH = s.blk.opH := rfl
@[simp] theorem countPoll_opAddr : (countPoll s).blk.opAddr = s.blk.opAddr := rfl
@[simp] theorem countPoll_opLen : (countPoll s).blk.opLen = s.blk.opLen := rfl
@[simp] theorem countPoll_opVerify : (countPoll s).blk.opVerify = s.blk.opVerify := rfl
@[simp] theorem countPoll_pbuf : (countPoll s).blk.pbuf = s.blk.pbuf := rfl
@[simp] theorem countPoll_txbuf : (countPoll s).blk.txbuf = s.blk.txbuf := rfl
@[simp] theorem countPoll_rxbuf : (countPoll s).blk.rxbuf = s.blk.rxbuf := rfl
@[simp] theorem countPoll_pollCount : (countPoll s).blk.pollCount = nextPollCount s.cfg s.blk.pollCount := rfl
@[simp] theorem countPoll_rsp : (countPoll s).blk.rsp = s.blk.rsp := rfl

end

section
variable (h : Handle) (tx : Bytes) (s : State)

@[simp] theorem xfer_cfg : (xfer h tx s).cfg = s.cfg := rfl
@[simp] theorem xfer_host : (xfer h tx s).host = s.host := rfl
@[simp] theorem xfer_env : (xfer h tx s).env = s.env.after h tx := rfl
@[simp] theorem xfer_seq : (xfer h tx s).blk.seq = s.blk.seq := rfl
@[simp] theorem xfer_opSel : (xfer h tx s).blk.opSel = s.blk.opSel := rfl
@[simp] theorem xfer_opH : (xfer h tx s).blk.opH = s.blk.opH := rfl
@[simp] theorem xfer_opAddr : (xfer h tx s).blk.opAddr = s.blk.opAddr := rfl
@[simp] theorem xfer_opLen : (xfer h tx s).blk.opLen = s.blk.opLen := rfl
@[simp] theorem xfer_opVerify : (xfer h tx s).blk.opVerify = s.blk.opVerify := rfl
@[simp] theorem xfer_pbuf : (xfer h tx s).blk.pbuf = s.blk.pbuf := rfl
@[simp] theorem xfer_txbuf : (xfer h tx s).blk.txbuf = tx := rfl
@[simp] theorem xfer_rxbuf : (xfer h tx s).blk.rxbuf = (s.env.answer tx).rx := rfl
@[simp] theorem xfer_pollCount : (xfer h tx s).blk.pollCount = s.blk.pollCount := rfl
@[simp] theorem xfer_rsp : (xfer h tx s).blk.rsp = s.blk.rsp := rfl

end

section
variable (x : LoopEnd) (s : State)

@[simp] theorem noteLoopEnd_cfg : (noteLoopEnd x s).cfg = s.cfg := rfl
@[simp] theorem noteLoopEnd_host : (noteLoopEnd x s).host = s.host := rfl
@[simp] theorem noteLoopEnd_env : (noteLoopEnd x s).env = s.env.endLoop x := rfl
@[simp] theorem noteLoopEnd_seq : (noteLoopEnd x s).blk.seq = s.blk.seq := rfl
@[simp] theorem noteLoopEnd_opSel : (noteLoopEnd x s).blk.opSel = s.blk.opSel := rfl
@[simp] theorem noteLoopEnd_opH : (noteLoopEnd x s).blk.opH = s.blk.opH := rfl
@[simp] theorem noteLoopEnd_opAddr : (noteLoopEnd x s).blk.opAddr = s.blk.opAddr := rfl
@[simp] theorem noteLoopEnd_opLen : (noteLoopEnd x s).blk.opLen = s.blk.opLen := rfl
@[simp] theorem noteLoopEnd_opVerify : (noteLoopEnd x s).blk.opVerify = s.blk.opVerify := rfl
@[simp] theorem noteLoopEnd_pbuf : (noteLoopEnd x s).blk.pbuf = s.blk.pbuf := rfl
@[simp] theorem noteLoopEnd_txbuf : (noteLoopEnd x s).blk.txbuf = s.blk.txbuf := rfl
@[simp] theorem noteLoopEnd_rxbuf : (noteLoopEnd x s).blk.rxbuf = s.blk.rxbuf := rfl
@[simp] theorem noteLoopEnd_pollCount : (noteLoopEnd x s).blk.pollCount = s.blk.pollCount := rfl
@[simp] theorem noteLoopEnd_rsp : (noteLoopEnd x s).blk.rsp = s.blk.rsp := rfl

end

section
variable (r : Response) (s : State)

@[simp] theorem takeResponse_cfg : (takeResponse r s).cfg = s.cfg := rfl
@[simp] theorem takeResponse_host : (takeResponse r s).host = { s.host with received := s.host.received ++ [r] } := rfl
@[simp] theorem takeResponse_env : (takeResponse r s).env = s.env := rfl
@[simp] theorem takeResponse_seq : (takeResponse r s).blk.seq = s.blk.seq := rfl
@[simp] theorem takeResponse_opSel : (takeResponse r s).blk.opSel = s.blk.opSel := rfl
@[simp] theorem takeResponse_opH : (takeResponse r s).blk.opH = s.blk.opH := rfl
@[simp] theorem takeResponse_opAddr : (takeResponse r s).blk.opAddr = s.blk.opAddr := rfl
@[simp] theorem takeResponse_opLen : (takeResponse r s).blk.opLen = s.blk.opLen := rfl
@[simp] theorem takeResponse_opVerify : (takeResponse r s).blk.opVerify = s.blk.opVerify := rfl
@[simp] theorem takeResponse_pbuf : (takeResponse r s).blk.pbuf = s.blk.pbuf := rfl
@[simp] theorem takeResponse_txbuf : (takeResponse r s).blk.txbuf = s.blk.txbuf := rfl
@[simp] theorem takeResponse_rxbuf : (takeResponse r s).blk.rxbuf = s.blk.rxbuf := rfl
@[simp] theorem takeResponse_pollCount : (takeResponse r s).blk.pollCount = s.blk.pollCount := rfl
@[simp] theorem takeResponse_rsp : (takeResponse r s).blk.rsp = none := rfl

end

section
variable (rs : List Request) (s : State)

@[simp] theorem withRequests_cfg : (withRequests rs s).cfg = s.cfg := rfl
@[simp] theorem withRequests_host : (withRequests rs s).host = { s.host with requests := rs } := rfl
@[simp] theorem withRequests_env : (withRequests rs s).env = s.env := rfl
@[simp] theorem withRequests_seq : (withRequests rs s).blk.seq = s.blk.seq := rfl
@[simp] theorem withRequests_opSel : (withRequests rs s).blk.opSel = s.blk.opSel := rfl
@[simp] theorem withRequests_opH : (withRequests rs s).blk.opH = s.blk.opH := rfl
@[simp] theorem withRequests_opAddr : (withRequests rs s).blk.opAddr = s.blk.opAddr := rfl
@[simp] theorem withRequests_opLen : (withRequests rs s).blk.opLen = s.blk.opLen := rfl
@[simp] theorem withRequests_opVerify : (withRequests rs s).blk.opVerify = s.blk.opVerify := rfl
@[simp] theorem withRequests_pbuf : (withRequests rs s).blk.pbuf = s.blk.pbuf := rfl
@[simp] theorem withRequests_txbuf : (withRequests rs s).blk.txbuf = s.blk.txbuf := rfl
@[simp] theorem withRequests_rxbuf : (withRequests rs s).blk.rxbuf = s.blk.rxbuf := rfl
@[simp] theorem withRequests_pollCount : (withRequests rs s).blk.pollCount = s.blk.pollCount := rfl
@[simp] theorem withRequests_rsp : (withRequests rs s).blk.rsp = s.blk.rsp := rfl

end

/-! `raise`, `raiseInLoop`, `succeed`, `leavePolling` and `finishWrite` are said in the words of the updates above. -/

section
variable (s : State)

@[simp] theorem raise_eq (k : ErrorKind) : raise k s = respond (.failure k) s := rfl
@[simp] theorem raiseInLoop_eq (k : ErrorKind) (x : LoopEnd) :
    raiseInLoop k x s = respond (.failure k) (noteLoopEnd x s) := rfl
theorem raiseInLoop_env (k : ErrorKind) (x : LoopEnd) : (raiseInLoop k x s).env = s.env.endLoop x := rfl
@[simp] theorem succeed_eq (o : Output) : succeed o s = respond (.success o) s := rfl
@[simp] theorem leavePolling_eq :
    leavePolling s =
      setSeq
        (match s.blk.opVerify with
          | true => .verifying
          | false => .done)
        (noteLoopEnd (.written s.blk.opVerify) s) := rfl
theorem leavePolling_env : (leavePolling s).env = s.env.endLoop (.written s.blk.opVerify) := rfl
@[simp] theorem finishWrite_eq : finishWrite s = respond (.success .nothing) s := rfl

@[simp] theorem enterPolling_cfg : (enterPolling s).cfg = s.cfg := rfl
@[simp] theorem enterPolling_host : (enterPolling s).host = s.host := rfl
@[simp] theorem enterPolling_env : (enterPolling s).env = s.env := rfl
@[simp] theorem enterPolling_seq : (enterPolling s).blk.seq = .polling := rfl
@[simp] theorem enterPolling_opSel : (enterPolling s).blk.opSel = s.blk.opSel := rfl
@[simp] theorem enterPolling_opH : (enterPolling s).blk.opH = s.blk.opH := rfl
@[simp] theorem enterPolling_opAddr : (enterPolling s).blk.opAddr = s.blk.opAddr := rfl
@[simp] theorem enterPolling_opLen : (enterPolling s).blk.opLen = s.blk.opLen := rfl
@[simp] theorem enterPolling_opVerify : (enterPolling s).blk.opVerify = s.blk.opVerify := rfl
@[simp] theorem enterPolling_pbuf : (enterPolling s).blk.pbuf = s.blk.pbuf := rfl
@[simp] theorem enterPolling_txbuf : (enterPolling s).blk.txbuf = s.blk.txbuf := rfl
@[simp] theorem enterPolling_rxbuf : (enterPolling s).blk.rxbuf = s.blk.rxbuf := rfl
@[simp] theorem enterPolling_rsp : (enterPolling s).blk.rsp = s.blk.rsp := rfl

@[simp] theorem resetBlock_cfg : (resetBlock s).cfg = s.cfg := rfl
@[simp] theorem resetBlock_env : (resetBlock s).env = s.env := rfl
@[simp] theorem resetBlock_seq : (resetBlock s).blk.seq = .idle := rfl
@[simp] theorem resetBlock_rsp : (resetBlock s).blk.rsp = none := rfl
@[simp] theorem resetBlock_host :
    (resetBlock s).host = { s.host with resetLine := false, resets := s.host.resets + 1 } := rfl

@[simp] theorem accepting_iff : s.accepting = true ↔ s.blk.seq = .idle ∧ s.blk.rsp = none := by
  simp [State.accepting]

end

end Sys2Proof.Machine
end

