-- ==== Sys2Proof/Laws/Decode.lean ====
section
/-! SUPPORT. Frames: their lengths, the address bytes, and what a receiver reads from each of them. -/

namespace Sys2Proof

@[simp] theorem length_encAddr (op : Byte) (a : Addr) : (encAddr op a).length = 4 := rfl
@[simp] theorem length_dataFrame (a : Addr) (d : Bytes) : (dataFrame a d).length = d.length + 4 := by
  simp [dataFrame, Nat.add_comm]
@[simp] theorem length_readFrame (a : Addr) (n : Nat) : (readFrame a n).length = n + 4 := by
  simp [readFrame, Nat.add_comm]
@[simp] theorem length_wrenFrame : wrenFrame.length = 1 := rfl
@[simp] theorem length_wrdiFrame : wrdiFrame.length = 1 := rfl
@[simp] theorem length_rdsrFrame : rdsrFrame.length = 2 := rfl
@[simp] theorem length_lpwpFrame : lpwpFrame.length = 2 := rfl

theorem toNat_addrByte (a : Addr) (k : Nat) : (addrByte a k).toNat = a.toNat / 256 ^ k % 256 := by
  simp [addrByte]

/-- The three address bytes recompose to the address (R82). -/
@[simp] theorem joinAddrNat_addrByte (a : Addr) :
    joinAddrNat (addrByte a 0) (addrByte a 1) (addrByte a 2) = a.toNat := by
  have h := a.isLt
  simp only [joinAddrNat, toNat_addrByte]
  omega

@[simp] theorem joinAddr_addrByte (a : Addr) : joinAddr (addrByte a 0) (addrByte a 1) (addrByte a 2) = a := by
  simp [joinAddr]

theorem joinAddrNat_lt (a0 a1 a2 : Byte) : joinAddrNat a0 a1 a2 < Config.addrSpace := by
  have h0 := a0.isLt
  have h1 := a1.isLt
  have h2 := a2.isLt
  simp only [joinAddrNat, Config.addrSpace]
  omega

/-- Byte `k` of a joined address is the byte it was joined from. -/
theorem addrByte_joinAddr (a0 a1 a2 : Byte) :
    addrByte (joinAddr a0 a1 a2) 0 = a0 ∧ addrByte (joinAddr a0 a1 a2) 1 = a1 ∧ addrByte (joinAddr a0 a1 a2) 2 = a2 := by
  have h := joinAddrNat_lt a0 a1 a2
  have h0 := a0.isLt
  have h1 := a1.isLt
  have h2 := a2.isLt
  have hj : (joinAddr a0 a1 a2).toNat = a0.toNat + 256 * a1.toNat + 65536 * a2.toNat := by
    simp only [joinAddr, BitVec.toNat_ofNat]
    exact Nat.mod_eq_of_lt h
  refine ⟨?_, ?_, ?_⟩ <;>
  · apply BitVec.eq_of_toNat_eq
    rw [toNat_addrByte, hj]
    omega

/-- The address bytes as bit slices (R82). -/
theorem addrByte_extract (a : Addr) :
    addrByte a 0 = a.extractLsb' 0 8 ∧ addrByte a 1 = a.extractLsb' 8 8 ∧ addrByte a 2 = a.extractLsb' 16 8 := by
  refine ⟨?_, ?_, ?_⟩ <;> apply BitVec.eq_of_toNat_eq <;> simp [toNat_addrByte, Nat.shiftRight_eq_div_pow]

/-- Three bytes that add up to an address are its bytes. -/
theorem joinAddr_eq_iff (a : Addr) (a0 a1 a2 : Byte) :
    joinAddr a0 a1 a2 = a ↔ a.toNat = a0.toNat + 256 * a1.toNat + 65536 * a2.toNat := by
  have h := joinAddrNat_lt a0 a1 a2
  constructor
  · rintro rfl
    simp only [joinAddr, BitVec.toNat_ofNat]
    exact Nat.mod_eq_of_lt h
  · intro h'
    apply BitVec.eq_of_toNat_eq
    simp [joinAddr, joinAddrNat, ← h']

theorem decodeBare_ok {i j : Instr} {rest : Bytes} (h : decodeBare i rest = .ok j) : rest = [] ∧ j = i := by
  unfold decodeBare at h
  split at h <;> cases h
  exact ⟨rfl, rfl⟩

theorem decodeDummy_ok {i j : Instr} {rest : Bytes} (h : decodeDummy i rest = .ok j) : rest = [0x00] ∧ j = i := by
  unfold decodeDummy at h
  split at h
  · split at h
    · next hb => cases h; subst hb; exact ⟨rfl, rfl⟩
    · cases h
  · cases h

theorem decodeWriteFrame_ok {j : Instr} {rest : Bytes} (h : decodeWriteFrame rest = .ok j) :
    ∃ a0 a1 a2 d, rest = a0 :: a1 :: a2 :: d ∧ 1 ≤ d.length ∧ d.length ≤ 256 ∧
      j = .wireWrite (joinAddr a0 a1 a2) d := by
  unfold decodeWriteFrame at h
  split at h
  · split at h
    · next hd => cases h; exact ⟨_, _, _, _, rfl, hd.1, hd.2, rfl⟩
    · cases h
  · cases h

theorem decodeReadFrame_ok {c : Config} {j : Instr} {rest : Bytes} (h : decodeReadFrame c rest = .ok j) :
    ∃ a0 a1 a2 d, rest = a0 :: a1 :: a2 :: d ∧ 1 ≤ d.length ∧ d.length ≤ c.maxRead ∧
      j = .wireRead (joinAddr a0 a1 a2) d.length := by
  unfold decodeReadFrame at h
  split at h
  · split at h
    · next hd => cases h; exact ⟨_, _, _, _, rfl, hd.1, hd.2, rfl⟩
    · cases h
  · cases h

/-- What the decoder of frames can answer, case by case (R90). -/
theorem decodeFrame_cases {c : Config} {f : Bytes} {i : Instr} (h : decodeFrame c f = .ok i) :
    (f = [0x01] ∧ i = .wireWrsr) ∨
    (∃ a0 a1 a2 d, f = 0x02 :: a0 :: a1 :: a2 :: d ∧ 1 ≤ d.length ∧ d.length ≤ 256 ∧
      i = .wireWrite (joinAddr a0 a1 a2) d) ∨
    (∃ a0 a1 a2 d, f = 0x03 :: a0 :: a1 :: a2 :: d ∧ 1 ≤ d.length ∧ d.length ≤ c.maxRead ∧
      i = .wireRead (joinAddr a0 a1 a2) d.length) ∨
    (f = [0x04] ∧ i = .wireWrdi) ∨ (f = [0x05, 0x00] ∧ i = .wireRdsr) ∨ (f = [0x06] ∧ i = .wireWren) ∨
    (f = [0x08, 0x00] ∧ i = .wireLpwp) := by
  unfold decodeFrame at h
  split at h
  · cases h
  split at h
  · next ho => subst ho; obtain ⟨rfl, rfl⟩ := decodeBare_ok h; exact .inl ⟨rfl, rfl⟩
  split at h
  · next ho =>
    subst ho
    obtain ⟨a0, a1, a2, d, rfl, h1, h2, rfl⟩ := decodeWriteFrame_ok h
    exact .inr (.inl ⟨a0, a1, a2, d, rfl, h1, h2, rfl⟩)
  split at h
  · next ho =>
    subst ho
    obtain ⟨a0, a1, a2, d, rfl, h1, h2, rfl⟩ := decodeReadFrame_ok h
    exact .inr (.inr (.inl ⟨a0, a1, a2, d, rfl, h1, h2, rfl⟩))
  split at h
  · next ho => subst ho; obtain ⟨rfl, rfl⟩ := decodeBare_ok h; simp [Config.opWrdi]
  split at h
  · next ho => subst ho; obtain ⟨rfl, rfl⟩ := decodeDummy_ok h; simp [Config.opRdsr]
  split at h
  · next ho => subst ho; obtain ⟨rfl, rfl⟩ := decodeBare_ok h; simp [Config.opWren]
  split at h
  · next ho => subst ho; obtain ⟨rfl, rfl⟩ := decodeDummy_ok h; simp [Config.opLpwp]
  · cases h

namespace Machine

@[simp] theorem receive_wrenFrame : receive wrenFrame = .wren := rfl
@[simp] theorem receive_wrdiFrame : receive wrdiFrame = .wrdi := rfl
@[simp] theorem receive_rdsrFrame : receive rdsrFrame = .rdsr := rfl
@[simp] theorem receive_lpwpFrame : receive lpwpFrame = .lpwp := rfl

/-- A receiver finds the address and the payload the sender put in (R52, R82). -/
theorem receive_dataFrame (a : Addr) (d : Bytes) (hd : d ≠ []) : receive (dataFrame a d) = .data a.toNat d := by
  cases d with
  | nil => exact absurd rfl hd
  | cons b bs =>
    simp only [dataFrame, encAddr, List.cons_append, List.nil_append, receive, joinAddrNat_addrByte]
    simp [Config.opWrite, Config.opRead]

theorem receive_readFrame (a : Addr) (n : Nat) : receive (readFrame a n) = .read a.toNat n := by
  cases n <;>
    simp [readFrame, encAddr, receive, Config.opRead, List.replicate_succ]

end Machine

end Sys2Proof
end

