-- ==== Sys2Proof/Laws/Memory.lean ====
section
/-! SUPPORT. Memory: read after write, and every operation keeps the canonical form. -/

namespace Sys2Proof.Machine

theorem wfFrom_mono {lo lo' : Nat} {m : Memory} (h : lo' ≤ lo) (hm : Memory.wfFrom lo m = true) :
    Memory.wfFrom lo' m = true := by
  cases m with
  | nil => rfl
  | cons c t =>
    obtain ⟨k, v⟩ := c
    simp only [Memory.wfFrom, Bool.and_eq_true, decide_eq_true_eq] at hm ⊢
    exact ⟨⟨⟨by omega, hm.1.1.2⟩, hm.1.2⟩, hm.2⟩

/-- Below the first address nothing is listed. -/
theorem memRead_below {lo a : Nat} {m : Memory} (hm : Memory.wfFrom lo m = true) (h : a < lo) :
    memRead m a = unwritten := by
  induction m generalizing lo with
  | nil => rfl
  | cons c t ih =>
    obtain ⟨k, v⟩ := c
    simp only [Memory.wfFrom, Bool.and_eq_true, decide_eq_true_eq] at hm
    rw [memRead, if_neg (by omega), ih hm.2 (by omega)]

theorem memRead_consCell (a b : Nat) (v : Byte) (m : Memory) (h : a = b → memRead m b = unwritten) :
    memRead (consCell a v m) b = if b = a then v else memRead m b := by
  unfold consCell
  by_cases hv : v = unwritten <;> by_cases hb : b = a <;> simp [hv, hb, memRead]
  exact h hb.symm ▸ hb ▸ rfl

/-- Read after write. -/
theorem memRead_memWrite_from {lo : Nat} {m : Memory} (hm : Memory.wfFrom lo m = true) (a : Nat) (b : Byte) (x : Nat) :
    memRead (memWrite m a b) x = if x = a then b else memRead m x := by
  induction m generalizing lo with
  | nil => exact memRead_consCell a x b [] fun _ => rfl
  | cons c t ih =>
    obtain ⟨k, v⟩ := c
    simp only [Memory.wfFrom, Bool.and_eq_true, decide_eq_true_eq] at hm
    simp only [memWrite]
    split
    · next hak =>
      apply memRead_consCell
      intro hx; subst hx
      rw [memRead, if_neg (by omega), memRead_below hm.2 (by omega)]
    · split
      · next hak =>
        subst hak
        rw [memRead_consCell _ _ _ _ fun hx => memRead_below hm.2 (by omega)]
        by_cases hx : x = a <;> simp [hx, memRead]
      · next h1 h2 =>
        simp only [memRead, ih hm.2]
        by_cases hx : x = k
        · subst hx; simp [Ne.symm h2]
        · simp [hx]

theorem memRead_memWrite {m : Memory} (hm : Memory.wf m = true) (a : Nat) (b : Byte) (x : Nat) :
    memRead (memWrite m a b) x = if x = a then b else memRead m x := memRead_memWrite_from hm a b x

theorem wfFrom_consCell {lo a : Nat} {b : Byte} {m : Memory} (ha : lo ≤ a) (h24 : a < Config.addrSpace)
    (hm : Memory.wfFrom (a + 1) m = true) : Memory.wfFrom lo (consCell a b m) = true := by
  unfold consCell
  split
  · exact wfFrom_mono (by omega) hm
  · simp [Memory.wfFrom, *]

theorem wfFrom_memWrite {lo a : Nat} {b : Byte} {m : Memory} (ha : lo ≤ a) (h24 : a < Config.addrSpace)
    (hm : Memory.wfFrom lo m = true) : Memory.wfFrom lo (memWrite m a b) = true := by
  induction m generalizing lo with
  | nil => exact wfFrom_consCell ha h24 rfl
  | cons c t ih =>
    obtain ⟨k, v⟩ := c
    have hm' := hm
    simp only [Memory.wfFrom, Bool.and_eq_true, decide_eq_true_eq] at hm
    simp only [memWrite]
    split
    · next h =>
      refine wfFrom_consCell ha h24 ?_
      simp only [Memory.wfFrom, Bool.and_eq_true, decide_eq_true_eq]
      exact ⟨⟨⟨by omega, hm.1.1.2⟩, hm.1.2⟩, hm.2⟩
    · split
      · next h1 h2 => subst h2; exact wfFrom_consCell ha h24 hm.2
      · next h1 h2 =>
        simp only [Memory.wfFrom, Bool.and_eq_true, decide_eq_true_eq]
        exact ⟨hm.1, ih (by omega) hm.2⟩

/-- A place function that stays in the address space. -/
def Placed (place : Nat → Option Nat) : Prop := ∀ a k, place a = some k → k < Config.addrSpace

theorem placed_stub : Placed stubPlace := by
  intro a k h
  simp only [stubPlace, Option.some.injEq] at h
  rw [← h]
  exact Nat.mod_lt _ (by decide)

theorem placed_device (size : Nat) : Placed (devicePlace size) := by
  intro a k h
  simp only [devicePlace] at h
  split at h <;> simp_all

theorem wf_storeAt {place : Nat → Option Nat} (hp : Placed place) {m : Memory} (hm : Memory.wf m = true) (a : Nat)
    (b : Byte) : Memory.wf (storeAt place m a b) = true := by
  unfold storeAt
  split
  · next k hk => exact wfFrom_memWrite (Nat.zero_le _) (hp a k hk) hm
  · exact hm

/-- A run of bytes keeps the canonical form. -/
theorem wf_storeRun {place : Nat → Option Nat} (hp : Placed place) {m : Memory} (hm : Memory.wf m = true) (a : Nat)
    (bs : Bytes) : Memory.wf (storeRun place m a bs) = true := by
  induction bs generalizing m a with
  | nil => exact hm
  | cons b bs ih => exact ih (wf_storeAt hp hm a b) (a + 1)

theorem memRead_storeAt {place : Nat → Option Nat} {m : Memory} (hm : Memory.wf m = true) (a : Nat) (b : Byte) (x : Nat) :
    memRead (storeAt place m a b) x = if place a = some x then b else memRead m x := by
  unfold storeAt
  split
  · next k hk => rw [memRead_memWrite hm, hk]; simp [eq_comm]
  · next hk => simp [hk]

/-- A run of bytes changes only the bytes it is stored to. -/
theorem memRead_storeRun_outside {place : Nat → Option Nat} (hp : Placed place) {m : Memory} (hm : Memory.wf m = true)
    (a : Nat) (bs : Bytes) (x : Nat) (hx : ∀ i < bs.length, place (a + i) ≠ some x) :
    memRead (storeRun place m a bs) x = memRead m x := by
  induction bs generalizing m a with
  | nil => rfl
  | cons b bs ih =>
    rw [storeRun, ih (wf_storeAt hp hm a b) (a + 1), memRead_storeAt hm, if_neg]
    · simpa using hx 0 (by simp)
    · intro i hi
      have := hx (i + 1) (by simpa using hi)
      rwa [show a + (i + 1) = a + 1 + i by omega] at this

/-- Byte `i` of a run reads back where it was stored, if no later byte of the run lands there too. -/
theorem memRead_storeRun_inside {place : Nat → Option Nat} (hp : Placed place) {m : Memory} (hm : Memory.wf m = true)
    (a : Nat) (bs : Bytes) (i : Nat) (hi : i < bs.length) (x : Nat) (hx : place (a + i) = some x)
    (hlast : ∀ j < bs.length, i < j → place (a + j) ≠ some x) :
    memRead (storeRun place m a bs) x = bs[i] := by
  induction bs generalizing m a i with
  | nil => simp at hi
  | cons b bs ih =>
    cases i with
    | zero =>
      rw [storeRun, memRead_storeRun_outside hp (wf_storeAt hp hm a b), memRead_storeAt hm, if_pos (by simpa using hx)]
      · rfl
      · intro j hj
        have := hlast (j + 1) (by simpa using hj) (by omega)
        rwa [show a + (j + 1) = a + 1 + j by omega] at this
    | succ i =>
      rw [storeRun]
      refine ih (wf_storeAt hp hm a b) (a + 1) i (by simpa using hi) ?_ ?_
      · rwa [show a + 1 + i = a + (i + 1) by omega]
      · intro j hj hij
        have := hlast (j + 1) (by simpa using hj) (by omega)
        rwa [show a + (j + 1) = a + 1 + j by omega] at this

end Sys2Proof.Machine
end

