-- ==== Sys2Proof/Laws/Device.lean ====
section
/-! SUPPORT. One call of the transport: the length of its answer, its record, and what it may do to the device. -/

namespace Sys2Proof.Machine

@[simp] theorem length_fitResponse (n len : Nat) (rx : Bytes) : (fitResponse n len rx).length = len := by
  simp [fitResponse]

/-- A response that has the length of the frame is taken as it is. -/
theorem fitResponse_self (n : Nat) (rx : Bytes) : fitResponse n rx.length rx = rx := by
  apply List.ext_getElem
  · simp
  · intro i h1 h2
    simp [fitResponse, h2]

@[simp] theorem length_rep (b : Byte) (n : Nat) : (rep b n).length = n := by simp [rep]

@[simp] theorem length_stubLoad (m : Memory) (a n : Nat) : (stubLoad m a n).length = n := by simp [stubLoad]

/-- The length of a frame that is read so (R83). -/
def Received.Length (n : Nat) : Received → Prop
  | .wren => n = 1
  | .wrdi => n = 1
  | .rdsr => n = 2
  | .lpwp => n = 2
  | .data _ d => n = d.length + 4
  | .read _ k => n = k + 4
  | .ignored => True

/-- What a receiver reads fixes the length of the frame (R83). -/
theorem receive_length (tx : Bytes) : (receive tx).Length tx.length := by
  match tx with
  | [] => trivial
  | [op] => simp only [receive]; repeat' split
            all_goals trivial
  | [op, _] => simp only [receive]; repeat' split
               all_goals trivial
  | [_, _, _] => trivial
  | op :: a0 :: a1 :: a2 :: d => simp only [receive]; repeat' split
                                 all_goals trivial

theorem length_stubResponse (e : Env) (tx : Bytes) : (stubResponse e tx).length = tx.length := by
  have h := receive_length tx
  unfold stubResponse
  split <;> simp_all [Config.hdrBytes, Received.Length]
  split <;> simp [Nat.add_comm]

/-- `len(rx) = len(tx)`, failed or not (R68). -/
@[simp] theorem length_answer (e : Env) (tx : Bytes) : (e.answer tx).rx.length = tx.length := by
  unfold Env.answer
  split
  · unfold freeAnswer
    split <;> simp
  · unfold stubAnswer
    split
    · simp
    · exact length_stubResponse e tx

section
variable (e : Env) (h : Handle) (tx : Bytes)

@[simp] theorem after_transport : (e.after h tx).transport = e.transport := rfl
@[simp] theorem after_calls : (e.after h tx).calls = e.calls + 1 := rfl
@[simp] theorem after_log : (e.after h tx).log = e.log ++ [⟨h, tx⟩] := rfl

theorem after_answers_unconstrained (ht : e.transport = .unconstrained) : (e.after h tx).answers = e.answers.tail := by
  simp [Env.after, ht]

theorem after_dev_unconstrained (ht : e.transport = .unconstrained) :
    (e.after h tx).dev = e.dev.afterFrame e.setup.devSize e.calls tx (e.answer tx) := by
  simp [Env.after, ht]

theorem after_dev_stub (ht : e.transport = .stub) (hf : stubFails e = false) : (e.after h tx).dev = stubDevice e tx := by
  simp [Env.after, ht, hf]

theorem after_dev_stub_failed (ht : e.transport = .stub) (hf : stubFails e = true) : (e.after h tx).dev = e.dev := by
  simp [Env.after, ht, hf]

theorem after_setup_unconstrained (ht : e.transport = .unconstrained) : (e.after h tx).setup = e.setup := by
  simp [Env.after, ht]

end

theorem wf_completeWrite (size n : Nat) (d : Device) (hm : Memory.wf d.mem = true) :
    Memory.wf (d.completeWrite size n).mem = true := by
  unfold Device.completeWrite
  cases d.lastData with
  | none => exact hm
  | some f =>
    dsimp only
    split
    · exact wf_storeRun (placed_device size) hm f.addr f.payload
    · exact hm

theorem wf_afterFrame (size n : Nat) (tx : Bytes) (a : Answer) (d : Device) (hm : Memory.wf d.mem = true) :
    Memory.wf (d.afterFrame size n tx a).mem = true := by
  unfold Device.afterFrame
  split
  · exact hm
  · exact hm
  · exact wf_storeRun (placed_device size) hm _ _
  · split
    · exact wf_completeWrite size n d hm
    · exact hm
  · exact hm
  · exact hm
  · exact hm

theorem wf_stubDevice (e : Env) (tx : Bytes) (hm : Memory.wf e.dev.mem = true) : Memory.wf (stubDevice e tx).mem = true := by
  unfold stubDevice
  split
  · dsimp only; split <;> exact hm
  · dsimp only; split <;> exact hm
  · split <;> exact hm
  · dsimp only
    split
    · exact wf_storeRun placed_stub hm _ _
    · exact hm
  · exact hm
  · exact hm
  · exact hm

/-- Every call keeps the canonical form of memory. -/
theorem wf_after (e : Env) (h : Handle) (tx : Bytes) (hm : Memory.wf e.dev.mem = true) :
    Memory.wf (e.after h tx).dev.mem = true := by
  unfold Env.after
  cases e.transport with
  | unconstrained => exact wf_afterFrame _ _ _ _ _ hm
  | stub =>
    dsimp only
    split
    · exact hm
    · exact wf_stubDevice e tx hm

@[simp] theorem length_storedBytes (v : Bool) (p : Bytes) (e : Env) : (storedBytes v p e).length = p.length := by
  unfold storedBytes freeAnswer
  cases v
  · rfl
  · cases e.answers <;> dsimp only <;> split <;> simp [readData, Config.hdrBytes]

section
variable (x : LoopEnd) (e : Env)

@[simp] theorem endLoop_transport : (e.endLoop x).transport = e.transport := rfl
@[simp] theorem endLoop_answers : (e.endLoop x).answers = e.answers := rfl
@[simp] theorem endLoop_calls : (e.endLoop x).calls = e.calls := rfl
@[simp] theorem endLoop_log : (e.endLoop x).log = e.log := rfl
@[simp] theorem endLoop_setup : (e.endLoop x).setup = e.setup := rfl

/-- The stub is as its frames left it (R70). -/
theorem endLoop_stub (ht : e.transport = .stub) : e.endLoop x = e := by
  cases e
  cases ht
  rfl

/-- The answers of the transport stay the same: the unconstrained transport does not look at the device. -/
@[simp] theorem endLoop_answer (tx : Bytes) : (e.endLoop x).answer tx = e.answer tx := by
  cases ht : e.transport with
  | stub => rw [endLoop_stub x e ht]
  | unconstrained => simp only [Env.answer, endLoop_transport, ht]; rfl

/-- The end of the poll loop keeps the canonical form of memory. -/
theorem wf_endLoop (hm : Memory.wf e.dev.mem = true) : Memory.wf (e.endLoop x).dev.mem = true := by
  unfold Env.endLoop
  cases e.transport with
  | stub => exact hm
  | unconstrained =>
    cases x with
    | unknown => exact hm
    | stillBusy => exact hm
    | written v =>
      dsimp only
      split
      · exact hm
      · exact wf_storeRun (placed_device _) hm _ _

end

/-- The environment, or what the end of the poll loop makes of it (R160). -/
def Env.Noted (e e' : Env) : Prop := e' = e ∨ ∃ x, e' = e.endLoop x

/-- The end of the poll loop changes the account of the device and nothing else. -/
theorem Env.Noted.same {e e' : Env} (h : e.Noted e') :
    e'.transport = e.transport ∧ e'.answers = e.answers ∧ e'.calls = e.calls ∧ e'.log = e.log ∧ e'.setup = e.setup := by
  rcases h with rfl | ⟨x, rfl⟩ <;> simp

theorem Env.Noted.wf {e e' : Env} (h : e.Noted e') (hm : Memory.wf e.dev.mem = true) : Memory.wf e'.dev.mem = true := by
  rcases h with rfl | ⟨x, rfl⟩
  · exact hm
  · exact wf_endLoop x e hm

/-- A poll changes nothing in a device that is idle, nor in one whose poll was not answered `IDLE` (R58). -/
theorem after_lpwpFrame_dev {e : Env} (h : Handle) (ht : e.transport = .unconstrained)
    (hd : e.dev.busyLeft = 0 ∨ saysIdle (e.answer lpwpFrame) = false) : (e.after h lpwpFrame).dev = e.dev := by
  rw [after_dev_unconstrained _ _ _ ht]
  rcases hd with hd | hd <;> simp [Device.afterFrame, Device.busy, hd]

@[simp] theorem length_corruptRun (c : Option (Addr × Byte)) (a : Nat) (p : Bytes) :
    (corruptRun c a p).length = p.length := by
  unfold corruptRun
  split <;> simp

/-- The answer of the stub to a call that does not fail (R71). -/
theorem answer_stub {e : Env} (ht : e.transport = .stub) (hf : stubFails e = false) (tx : Bytes) :
    e.answer tx = ⟨true, stubResponse e tx⟩ := by
  simp [Env.answer, ht, stubAnswer, hf]

/-- The device is left as it is by an RDSR frame (R130). -/
@[simp] theorem after_rdsrFrame_dev (e : Env) (h : Handle) : (e.after h rdsrFrame).dev = e.dev := by
  simp only [Env.after]
  cases e.transport <;> simp [Device.afterFrame, stubDevice]

/-- The device is left as it is by a READ frame (R111). -/
@[simp] theorem after_readFrame_dev (e : Env) (h : Handle) (a : Addr) (n : Nat) :
    (e.after h (readFrame a n)).dev = e.dev := by
  simp only [Env.after]
  cases e.transport <;> simp [Device.afterFrame, stubDevice, receive_readFrame]

/-- A WREN frame stores nothing. -/
theorem after_wrenFrame_mem (e : Env) (h : Handle) :
    (e.after h wrenFrame).dev.mem = e.dev.mem ∧ (e.after h wrenFrame).dev.busyLeft = e.dev.busyLeft := by
  simp only [Env.after]
  cases e.transport <;> simp [Device.afterFrame, stubDevice]
  split
  · simp
  · split <;> simp

/-- A WRDI frame stores nothing. -/
theorem after_wrdiFrame_mem (e : Env) (h : Handle) :
    (e.after h wrdiFrame).dev.mem = e.dev.mem ∧ (e.after h wrdiFrame).dev.busyLeft = e.dev.busyLeft := by
  simp only [Env.after]
  cases e.transport <;> simp [Device.afterFrame, stubDevice]
  split
  · simp
  · split <;> simp

end Sys2Proof.Machine
end

