-- ==== Sys2Proof/Laws/Ops.lean ====
section
/-! SUPPORT. The shared operations: everything one exchange can do, and what each step of the block leaves alone. -/

namespace Sys2Proof.Machine

section
variable {h : Handle} {tx : Bytes} {k : Bytes → State → State} {s : State}

theorem exchange_ok (hok : (s.env.answer tx).ok = true) :
    exchange h tx k s = k (s.env.answer tx).rx (xfer h tx s) := by simp [exchange, hok]

theorem exchange_failed (hok : (s.env.answer tx).ok = false) :
    exchange h tx k s = respond (.failure .transportError) (xfer h tx s) := by simp [exchange, hok]

/-- An exchange either failed and raised `TransportError`, or went on with the response (R181). -/
theorem exchange_cases (h : Handle) (tx : Bytes) (k : Bytes → State → State) (s : State) :
    ((s.env.answer tx).ok = false ∧ exchange h tx k s = respond (.failure .transportError) (xfer h tx s)) ∨
    ((s.env.answer tx).ok = true ∧ exchange h tx k s = k (s.env.answer tx).rx (xfer h tx s)) := by
  cases hok : (s.env.answer tx).ok with
  | false => exact .inl ⟨rfl, exchange_failed hok⟩
  | true => exact .inr ⟨rfl, exchange_ok hok⟩

/-- What holds after a failed exchange and after every continuation holds after the exchange. -/
theorem exchange_induct {P : State → Prop} (hf : P (respond (.failure .transportError) (xfer h tx s)))
    (hk : (s.env.answer tx).ok = true → P (k (s.env.answer tx).rx (xfer h tx s))) : P (exchange h tx k s) := by
  rcases exchange_cases h tx k s with ⟨_, he⟩ | ⟨hok, he⟩ <;> rw [he]
  · exact hf
  · exact hk hok

/-- An exchange is one call: the continuation makes no other. -/
theorem exchange_env (hk : ∀ rx t, (k rx t).env = t.env) : (exchange h tx k s).env = s.env.after h tx :=
  exchange_induct (P := fun t => t.env = s.env.after h tx) rfl fun _ => by rw [hk]; rfl

theorem exchange_cfg (hk : ∀ rx t, (k rx t).cfg = t.cfg) : (exchange h tx k s).cfg = s.cfg :=
  exchange_induct (P := fun t => t.cfg = s.cfg) rfl fun _ => by rw [hk]; rfl

theorem exchange_host (hk : ∀ rx t, (k rx t).host = t.host) : (exchange h tx k s).host = s.host :=
  exchange_induct (P := fun t => t.host = s.host) rfl fun _ => by rw [hk]; rfl

end

/-! What each step sends. -/

section
variable (s : State) (h : Handle) (a : Addr) (n : Nat) (d : Bytes)

/-- The answer of a poll sends nothing; where it ends the poll loop it says something about the device (R160). -/
theorem pollAnswered_env (b : Byte) : s.env.Noted (pollAnswered b s).env := by
  unfold pollAnswered; repeat' split
  all_goals first | exact .inl rfl | exact .inr ⟨_, raiseInLoop_env _ _ _⟩ | exact .inr ⟨_, leavePolling_env _⟩

theorem pollAnswered_cfg (b : Byte) : (pollAnswered b s).cfg = s.cfg := by
  unfold pollAnswered; repeat' split
  all_goals simp

theorem pollAnswered_host (b : Byte) : (pollAnswered b s).host = s.host := by
  unfold pollAnswered; repeat' split
  all_goals simp

theorem readStep_env : (readStep h a n s).env = if readOk s.cfg n then s.env.after h (readFrame a n) else s.env := by
  unfold readStep
  split
  · exact exchange_env fun _ _ => rfl
  · rfl

theorem rdsrStep_env : (rdsrStep h s).env = s.env.after h rdsrFrame := exchange_env fun _ _ => rfl
theorem wrenStep_env : (wrenStep h s).env = s.env.after h wrenFrame := exchange_env fun _ _ => rfl
theorem wrdiStep_env : (wrdiStep h s).env = s.env.after h wrdiFrame := exchange_env fun _ _ => rfl
theorem pollOnce_env : (pollOnce h s).env = s.env.after h lpwpFrame :=
  exchange_env fun rx t => by split <;> rfl
theorem latchStep_env : (latchStep s).env = s.env.after s.blk.opH wrenFrame := exchange_env fun _ _ => rfl
theorem dataStep_env : (dataStep a d s).env = s.env.after s.blk.opH (dataFrame a d) := exchange_env fun _ _ => rfl
theorem pollStep_env : (s.env.after s.blk.opH lpwpFrame).Noted (pollStep s).env :=
  exchange_induct (P := fun t => (s.env.after s.blk.opH lpwpFrame).Noted t.env) (.inl rfl) fun _ => pollAnswered_env _ _
theorem verifyStep_env : (verifyStep a n s).env = s.env.after s.blk.opH (readFrame a n) :=
  exchange_env fun _ _ => by split <;> rfl

end

/-! Operands. -/

/-- The bounds check as the rule writes it (R112). -/
theorem writeOk_iff (c : Config) (a : Addr) (l : Nat) :
    writeOk c a l = true ↔ 1 ≤ l ∧ l ≤ 256 ∧ row c a.toNat = row c (a.toNat + l - 1) := by
  simp only [writeOk, Bool.and_eq_true, decide_eq_true_eq, and_assoc]
  rfl

theorem readOk_iff (c : Config) (n : Nat) : readOk c n = true ↔ 1 ≤ n ∧ n ≤ c.maxRead := by
  simp [readOk]

/-- What READ takes from a response of the length of its frame (R85). -/
theorem readData_spec {n : Nat} {rx : Bytes} (h : rx.length = n + 4) :
    (readData n rx).length = n ∧ ∀ i < n, (readData n rx)[i]? = rx[4 + i]? := by
  refine ⟨by simp [readData, Config.hdrBytes]; omega, fun i hi => ?_⟩
  simp [readData, Config.hdrBytes, hi]

/-- `rx[1]` of the answer to a two-byte frame (R85). -/
theorem answer_byte_one (e : Env) {tx : Bytes} (h : tx.length = 2) :
    (e.answer tx).rx[1]? = some (statusByte (e.answer tx).rx) := by
  have := length_answer e tx
  simp only [statusByte, List.getD_eq_getElem?_getD]
  rw [List.getElem?_eq_getElem (by omega)]
  simp

end Sys2Proof.Machine
end

