-- ==== Sys2Proof/Laws/PerInstr.lean ====
section
/-! SUPPORT. Statements for every instruction, one lemma per constructor. -/

/-! FrameLength: "frame length = payload length + 4 for read/write-with-address commands; length = 1 or 2 for
control/status commands" (R80), and a request has no frame (R88). -/

namespace Sys2Proof.Laws.FrameLength

def Statement (i : Instr) : Prop :=
  match i with
  | .wireWrsr | .wireWrdi | .wireWren => ∃ f, encode i = .frame f ∧ f.length = 1
  | .wireRdsr | .wireLpwp => ∃ f, encode i = .frame f ∧ f.length = 2
  | .wireWrite _ d => ∃ f, encode i = .frame f ∧ f.length = d.length + 4
  | .wireRead _ n => ∃ f, encode i = .frame f ∧ f.length = n + 4
  | .hostRead _ _ _ | .hostWrite _ _ _ _ | .hostRdsr _ | .hostWren _ | .hostWrdi _ | .hostPoll _ | .illegal6
  | .illegal7 => ∃ r, encode i = .request r

theorem wireWrsr : Statement .wireWrsr := ⟨_, rfl, rfl⟩
theorem wireWrite (a : Addr) (d : Bytes) : Statement (.wireWrite a d) := ⟨_, rfl, length_dataFrame a d⟩
theorem wireRead (a : Addr) (n : Nat) : Statement (.wireRead a n) := ⟨_, rfl, length_readFrame a n⟩
theorem wireWrdi : Statement .wireWrdi := ⟨_, rfl, rfl⟩
theorem wireRdsr : Statement .wireRdsr := ⟨_, rfl, rfl⟩
theorem wireWren : Statement .wireWren := ⟨_, rfl, rfl⟩
theorem wireLpwp : Statement .wireLpwp := ⟨_, rfl, rfl⟩
theorem hostRead (h : Handle) (a : Addr) (n : Nat) : Statement (.hostRead h a n) := ⟨_, rfl⟩
theorem hostWrite (h : Handle) (a : Addr) (d : Bytes) (v : Bool) : Statement (.hostWrite h a d v) := ⟨_, rfl⟩
theorem hostRdsr (h : Handle) : Statement (.hostRdsr h) := ⟨_, rfl⟩
theorem hostWren (h : Handle) : Statement (.hostWren h) := ⟨_, rfl⟩
theorem hostWrdi (h : Handle) : Statement (.hostWrdi h) := ⟨_, rfl⟩
theorem hostPoll (h : Handle) : Statement (.hostPoll h) := ⟨_, rfl⟩
theorem illegal6 : Statement .illegal6 := ⟨_, rfl⟩
theorem illegal7 : Statement .illegal7 := ⟨_, rfl⟩

end Sys2Proof.Laws.FrameLength
end

