-- ==== Sys2Proof/Laws/Step.lean ====
section
/-! SUPPORT. What a step can do, said once. -/

namespace Sys2Proof.Machine

/-- The state after an accepted request. -/
def acceptedTo (i : Instr) (s : State) : Option State :=
  match i with
  | .hostRead h a n => some (readStep h a n (latchRead h a n s))
  | .hostWrite h a d v =>
    some (if writeOk s.cfg a d.length then latchStep (loadPayload d (latchWrite h a d.length v s))
      else raise .boundsError (latchWrite h a d.length v s))
  | .hostRdsr h => some (rdsrStep h (latchOp .rdsr h s))
  | .hostWren h => some (wrenStep h (latchOp .wren h s))
  | .hostWrdi h => some (wrdiStep h (latchOp .wrdi h s))
  | .hostPoll h => some (pollOnce h (latchOp .poll h s))
  | .illegal6 => some (raise .illegalRequest s)
  | .illegal7 => some (raise .illegalRequest s)
  | .wireWrsr | .wireWrite _ _ | .wireRead _ _ | .wireWrdi | .wireRdsr | .wireWren | .wireLpwp => none

/-- A request decodes to a host operation or an illegal selector, never to a frame. -/
theorem decodeRequest_host {r : Request} {i : Instr} (hi : decodeRequest r = .ok i) (s : State) :
    ∃ t, acceptedTo i s = some t := by
  unfold decodeRequest at hi
  split at hi
  case h_2 =>
    split at hi
    · cases hi; exact ⟨_, rfl⟩
    · cases hi
  all_goals cases hi; exact ⟨_, rfl⟩

/-- A block that is ready carries out the request (R66). -/
theorem exec_accepted {i : Instr} {s t : State} (hs : s.accepting = true) (ht : acceptedTo i s = some t) :
    exec i s = .next t := by
  cases i <;> simp only [acceptedTo, Option.some.injEq, reduceCtorEq] at ht <;> subst ht <;>
    first
      | simp only [exec, execHostRead, execHostWrite, execHostRdsr, execHostWren, execHostWrdi, execHostPoll,
          execIllegal6, execIllegal7, onAccept, hs, if_true]

/-- A block that is not ready ignores the request (R66). -/
theorem exec_not_accepted {i : Instr} {s t : State} (hs : s.accepting = false) (ht : acceptedTo i s = some t) :
    exec i s = .next s := by
  cases i <;> simp only [acceptedTo, Option.some.injEq, reduceCtorEq] at ht <;>
    simp [exec, execHostRead, execHostWrite, execHostRdsr, execHostWren, execHostWrdi, execHostPoll,
      execIllegal6, execIllegal7, onAccept, hs]

/-- Everything a step that answers a next state can do. -/
inductive StepCase (s t : State) : Prop
  | reset (hr : s.host.resetLine = true) (ht : t = resetBlock s)
  | take (r : Response) (hr : s.host.resetLine = false) (hq : s.blk.seq = .idle) (hrsp : s.blk.rsp = some r)
      (ht : t = takeResponse r s)
  | wait (hr : s.host.resetLine = false) (hq : s.blk.seq = .idle) (hrsp : s.blk.rsp = none)
      (hreq : s.host.requests = []) (ht : t = s)
  | accept (r : Request) (rest : List Request) (i : Instr) (hr : s.host.resetLine = false) (hq : s.blk.seq = .idle)
      (hrsp : s.blk.rsp = none) (hreq : s.host.requests = r :: rest) (hi : decodeRequest r = .ok i)
      (ht : acceptedTo i (withRequests rest s) = some t)
  | data (hr : s.host.resetLine = false) (hq : s.blk.seq = .latchEnabled)
      (ht : t = dataStep s.blk.opAddr (livePayload s) s)
  | sent (hr : s.host.resetLine = false) (hq : s.blk.seq = .dataSent) (ht : t = enterPolling s)
  | poll (hr : s.host.resetLine = false) (hq : s.blk.seq = .polling) (ht : t = pollStep s)
  | verify (hr : s.host.resetLine = false) (hq : s.blk.seq = .verifying)
      (ht : t = verifyStep s.blk.opAddr s.blk.opLen s)
  | done (hr : s.host.resetLine = false) (hq : s.blk.seq = .done) (ht : t = finishWrite s)

theorem step_cases {s t : State} (h : step s = .next t) : StepCase s t := by
  unfold step activity at h
  cases hr : s.host.resetLine with
  | true =>
    simp only [hr, if_true, Host.Outcome.next.injEq] at h
    exact .reset hr h.symm
  | false =>
    simp only [hr, Bool.false_eq_true, if_false] at h
    cases hq : s.blk.seq with
    | idle =>
      simp only [hq] at h
      cases hrsp : s.blk.rsp with
      | some r =>
        simp only [hrsp, Host.Outcome.next.injEq] at h
        exact .take r hr hq hrsp h.symm
      | none =>
        simp only [hrsp, fetchRequest] at h
        cases hreq : s.host.requests with
        | nil =>
          simp only [hreq, Host.Outcome.next.injEq] at h
          exact .wait hr hq hrsp hreq h.symm
        | cons r rest =>
          simp only [hreq] at h
          cases hi : decodeRequest r with
          | error e => simp [hi] at h
          | ok i =>
            simp only [hi] at h
            obtain ⟨t', ht'⟩ := decodeRequest_host hi (withRequests rest s)
            rw [exec_accepted (by simp [hq, hrsp]) ht', Host.Outcome.next.injEq] at h
            exact .accept r rest i hr hq hrsp hreq hi (h ▸ ht')
    | latchEnabled =>
      simp only [hq, exec, execWireWrite, Host.Outcome.next.injEq] at h
      exact .data hr hq h.symm
    | dataSent =>
      simp only [hq, Host.Outcome.next.injEq] at h
      exact .sent hr hq h.symm
    | polling =>
      simp only [hq, exec, execWireLpwp, Host.Outcome.next.injEq] at h
      exact .poll hr hq h.symm
    | verifying =>
      simp only [hq, exec, execWireRead, Host.Outcome.next.injEq] at h
      exact .verify hr hq h.symm
    | done =>
      simp only [hq, Host.Outcome.next.injEq] at h
      exact .done hr hq h.symm

/-! The other direction: a sequencer state determines its step. -/

section
variable {s : State} (hr : s.host.resetLine = false)
include hr

theorem step_data (hq : s.blk.seq = .latchEnabled) : step s = .next (dataStep s.blk.opAddr (livePayload s) s) := by
  simp [step, activity, hr, hq, exec, execWireWrite]

theorem step_sent (hq : s.blk.seq = .dataSent) : step s = .next (enterPolling s) := by
  simp [step, activity, hr, hq]

theorem step_poll (hq : s.blk.seq = .polling) : step s = .next (pollStep s) := by
  simp [step, activity, hr, hq, exec, execWireLpwp]

theorem step_verify (hq : s.blk.seq = .verifying) : step s = .next (verifyStep s.blk.opAddr s.blk.opLen s) := by
  simp [step, activity, hr, hq, exec, execWireRead]

theorem step_done (hq : s.blk.seq = .done) : step s = .next (finishWrite s) := by
  simp [step, activity, hr, hq]

theorem step_take {r : Response} (hq : s.blk.seq = .idle) (hrsp : s.blk.rsp = some r) :
    step s = .next (takeResponse r s) := by
  simp [step, activity, hr, hq, hrsp]

theorem step_request {r : Request} {rest : List Request} {i : Instr} (hs : s.accepting = true)
    (hreq : s.host.requests = r :: rest) (hi : decodeRequest r = .ok i) :
    step s = exec i (withRequests rest s) := by
  obtain ⟨hq, hrsp⟩ := accepting_iff s |>.1 hs
  simp [step, activity, hr, hq, hrsp, fetchRequest, hreq, hi]

end

/-- One step of the host's `Core.run`. -/
theorem core_run_succ (M : Host.Core) (k : Nat) (s : M.State) :
    M.run (k + 1) s =
      match M.step s with
      | .next t => M.run k t
      | .fault f => .fault f
      | .refused r => .refused r := rfl

/-- `runSteps` is the host's `Core.run` on this machine. -/
theorem runSteps_eq_run (k : Nat) (s : State) : runSteps k s = Sys2Proof.core.run k s := by
  induction k generalizing s with
  | zero => rfl
  | succ k ih =>
    refine Eq.trans ?_ (core_run_succ Sys2Proof.core k s).symm
    have hstep : Sys2Proof.core.step s = step s := rfl
    rw [hstep, runSteps]
    cases step s with
    | next t => exact ih t
    | fault f => rfl
    | refused r => rfl

theorem runSteps_next {k : Nat} {s t : State} (h : step s = .next t) : runSteps (k + 1) s = runSteps k t := by
  rw [runSteps, h]

theorem runSteps_add {j k : Nat} {s t : State} (h : runSteps j s = .next t) : runSteps (j + k) s = runSteps k t := by
  induction j generalizing s with
  | zero => cases h; rw [Nat.zero_add]
  | succ j ih =>
    rw [show j + 1 + k = (j + k) + 1 by omega]
    rw [runSteps] at h ⊢
    cases hs : step s with
    | next s' => rw [hs] at h; exact ih h
    | fault f => rw [hs] at h; cases h
    | refused r => rw [hs] at h; cases h

/-! What an instruction that answers a next state can have done. -/

/-- A frame answers a next state only where the block sends it. -/
theorem exec_wire_cases {i : Instr} {s t : State} (h : exec i s = .next t) (hn : acceptedTo i s = none) :
    (s.accepting = true ∧
      ((∃ a n, i = .wireRead a n ∧ t = readStep s.blk.opH a n s) ∨ (i = .wireRdsr ∧ t = rdsrStep s.blk.opH s) ∨
       (i = .wireWren ∧ t = wrenStep s.blk.opH s) ∨ (i = .wireWrdi ∧ t = wrdiStep s.blk.opH s) ∨
       (i = .wireLpwp ∧ t = pollOnce s.blk.opH s))) ∨
    (∃ a d, i = .wireWrite a d ∧ s.blk.seq = .latchEnabled ∧ t = dataStep a d s) ∨
    (i = .wireLpwp ∧ s.blk.seq = .polling ∧ t = pollStep s) ∨
    (∃ a n, i = .wireRead a n ∧ s.blk.seq = .verifying ∧ t = verifyStep a n s) := by
  cases i <;> simp only [acceptedTo, reduceCtorEq] at hn
  case wireWrsr => cases h
  case wireWrite a d =>
    simp only [exec, execWireWrite] at h
    split at h
    · cases h; exact .inr (.inl ⟨_, _, rfl, by assumption, rfl⟩)
    · cases h
  case wireRead a n =>
    simp only [exec, execWireRead] at h
    split at h
    · unfold onIdleFrame at h
      split at h
      · next hs => cases h; exact .inl ⟨hs, .inl ⟨_, _, rfl, rfl⟩⟩
      · cases h
    · cases h; exact .inr (.inr (.inr ⟨_, _, rfl, by assumption, rfl⟩))
    · cases h
  case wireLpwp =>
    simp only [exec, execWireLpwp] at h
    split at h
    · unfold onIdleFrame at h
      split at h
      · next hs => cases h; exact .inl ⟨hs, by simp⟩
      · cases h
    · cases h; exact .inr (.inr (.inl ⟨rfl, by assumption, rfl⟩))
    · cases h
  all_goals
    simp only [exec, execWireRdsr, execWireWren, execWireWrdi, onIdleFrame] at h
    split at h
    · next hs => cases h; exact .inl ⟨hs, by simp⟩
    · cases h

/-- An instruction that answers a next state was ignored, accepted, or is a frame. -/
theorem exec_cases {i : Instr} {s t : State} (h : exec i s = .next t) :
    (t = s ∧ s.accepting = false) ∨ (s.accepting = true ∧ acceptedTo i s = some t) ∨ acceptedTo i s = none := by
  cases ha : acceptedTo i s with
  | none => simp
  | some u =>
    cases hs : s.accepting with
    | false => rw [exec_not_accepted hs ha] at h; cases h; simp
    | true => rw [exec_accepted hs ha] at h; cases h; simp

/-- Which frame an instruction sends, if it sends one. -/
inductive Sends : Instr → Bytes → Prop
  | hostRead (h : Handle) (a : Addr) (n : Nat) : Sends (.hostRead h a n) (readFrame a n)
  | wireRead (a : Addr) (n : Nat) : Sends (.wireRead a n) (readFrame a n)
  | hostWrite (h : Handle) (a : Addr) (d : Bytes) (v : Bool) : Sends (.hostWrite h a d v) wrenFrame
  | wireWrite (a : Addr) (d : Bytes) : Sends (.wireWrite a d) (dataFrame a d)
  | hostRdsr (h : Handle) : Sends (.hostRdsr h) rdsrFrame
  | wireRdsr : Sends .wireRdsr rdsrFrame
  | hostWren (h : Handle) : Sends (.hostWren h) wrenFrame
  | wireWren : Sends .wireWren wrenFrame
  | hostWrdi (h : Handle) : Sends (.hostWrdi h) wrdiFrame
  | wireWrdi : Sends .wireWrdi wrdiFrame
  | hostPoll (h : Handle) : Sends (.hostPoll h) lpwpFrame
  | wireLpwp : Sends .wireLpwp lpwpFrame

/-- An instruction leaves the environment alone or makes one call, with its own frame. -/
theorem exec_env {i : Instr} {s t : State} (hx : exec i s = .next t) :
    t.env = s.env ∨ ∃ hd tx, Sends i tx ∧ (s.env.after hd tx).Noted t.env := by
  rcases exec_cases hx with ⟨rfl, _⟩ | ⟨_, ht⟩ | hn
  · exact .inl rfl
  · cases i <;> simp only [acceptedTo, Option.some.injEq, reduceCtorEq] at ht <;> subst ht
    case hostRead h a n =>
      rw [readStep_env]
      split
      · exact .inr ⟨_, _, .hostRead h a n, .inl rfl⟩
      · exact .inl rfl
    case hostWrite h a d v =>
      split
      · exact .inr ⟨_, _, .hostWrite h a d v, .inl (latchStep_env _)⟩
      · exact .inl rfl
    case hostRdsr h => exact .inr ⟨_, _, .hostRdsr h, .inl (rdsrStep_env _ _)⟩
    case hostWren h => exact .inr ⟨_, _, .hostWren h, .inl (wrenStep_env _ _)⟩
    case hostWrdi h => exact .inr ⟨_, _, .hostWrdi h, .inl (wrdiStep_env _ _)⟩
    case hostPoll h => exact .inr ⟨_, _, .hostPoll h, .inl (pollOnce_env _ _)⟩
    all_goals exact .inl rfl
  · rcases exec_wire_cases hx hn with ⟨_, h⟩ | ⟨a, d, rfl, hq, rfl⟩ | ⟨rfl, hq, rfl⟩ | ⟨a, n, rfl, hq, rfl⟩
    · rcases h with ⟨a, n, rfl, rfl⟩ | ⟨rfl, rfl⟩ | ⟨rfl, rfl⟩ | ⟨rfl, rfl⟩ | ⟨rfl, rfl⟩
      · rw [readStep_env]
        split
        · exact .inr ⟨_, _, .wireRead a n, .inl rfl⟩
        · exact .inl rfl
      · exact .inr ⟨_, _, .wireRdsr, .inl (rdsrStep_env _ _)⟩
      · exact .inr ⟨_, _, .wireWren, .inl (wrenStep_env _ _)⟩
      · exact .inr ⟨_, _, .wireWrdi, .inl (wrdiStep_env _ _)⟩
      · exact .inr ⟨_, _, .wireLpwp, .inl (pollOnce_env _ _)⟩
    · exact .inr ⟨_, _, .wireWrite a d, .inl (dataStep_env _ _ _)⟩
    · exact .inr ⟨_, _, .wireLpwp, pollStep_env _⟩
    · exact .inr ⟨_, _, .wireRead a n, .inl (verifyStep_env _ _ _)⟩

end Sys2Proof.Machine
end

