-- ==== Sys2Proof/Tests/Slice0.lean ====
section
/-! SUPPORT. Tests on fixed values, each with its source in spec/, and the witnesses of the statements' hypotheses. -/

namespace Sys2Proof.Machine

/-! ### Small states -/

/-- Requests on the port, and the answers the transport will give. -/
def ready (rs : List Request) (as : List Answer) : State :=
  { State.reset with
    host := { HostPort.reset with requests := rs }
    env := { Env.reset with answers := as } }

/-- The write of vectors T1 to T19: `WRITE 0x000010, [AA BB CC]`, in the middle of the sequence. -/
def inWrite (q : SeqState) (v : Bool) (pollMax : Option Nat) (polls : Nat) (as : List Answer) : State :=
  { ready [] as with
    cfg := { Config.reference with pollMax := pollMax }
    blk :=
      { Block.reset with
        seq := q, opSel := .write, opH := ⟨7⟩, opAddr := 0x000010, opLen := 3, opVerify := v
        pbuf := [0xAA, 0xBB, 0xCC] ++ List.replicate 253 0, pollCount := polls } }

/-- The reference stub (R70), with requests on the port. -/
def onStub (rs : List Request) (d : Device) (u : StubSetup) : State :=
  { ready rs [] with env := { Env.reset with transport := .stub, dev := d, setup := u } }

/-- A request for the operation with this selector. -/
def request (op : BitVec 3) (a : Addr) (n : Nat) (v : Bool) (d : Bytes) : Request :=
  { op := op, h := ⟨7⟩, addr := a, len := n, verify := v, data := d }

/-- `Idle`, with a response that the host has not taken. -/
def pendingResponse : State := { ready [] [] with blk := { Block.reset with rsp := some (.failure .timeout) } }

/-- One step of an instruction, or of the machine, looked at through `f`. -/
def seen {α : Type} (f : State → α) (o : Host.Outcome State Fault Refusal) : Option α := (nextOf o).map f

/-- The frames sent. -/
def frames (s : State) : List Bytes := s.env.log.map Call.tx

/-! ### WellFormed refuses the ill-formed terms -/

/-- R83: `1 <= L`. -/
theorem test_wf_empty_data_frame : (Instr.wireWrite 0 []).wf Config.reference = false := by decide
/-- R83: `L <= 256`. -/
theorem test_wf_long_data_frame : (Instr.wireWrite 0 (List.replicate 257 0)).wf Config.reference = false := by
  simp only [Instr.wf, List.length_replicate]; decide
/-- R83: `1 <= N`. -/
theorem test_wf_zero_read_frame : (Instr.wireRead 0 0).wf Config.reference = false := by decide
/-- R83: `N <= MAX_READ`. -/
theorem test_wf_long_read_frame : (Instr.wireRead 0 257).wf Config.reference = false := by decide
/-- The bounds themselves are legal. -/
theorem test_wf_bounds :
    (Instr.wireWrite 0 [0]).wf Config.reference = true ∧ (Instr.wireRead 0 1).wf Config.reference = true ∧
      (Instr.wireRead 0 256).wf Config.reference = true := by decide
theorem test_wf_full_data_frame : (Instr.wireWrite 0 (List.replicate 256 0)).wf Config.reference = true := by
  simp only [Instr.wf, List.length_replicate]; decide

/-! ### Words written out from the encodings of R80, R81 and R88 -/

theorem test_decode_wrsr : decodeFrame Config.reference [0x01] = .ok .wireWrsr := by decide
/-- S1. -/
theorem test_decode_write :
    decodeFrame Config.reference [0x02, 0xCD, 0xAB, 0x01, 0xEE, 0xCA, 0xDD, 0x32, 0x55] =
      .ok (.wireWrite 0x01ABCD [0xEE, 0xCA, 0xDD, 0x32, 0x55]) := by decide
/-- B1: not `[03 12 34 56]`. -/
theorem test_decode_read : decodeFrame Config.reference [0x03, 0x56, 0x34, 0x12, 0x00, 0x00] = .ok (.wireRead 0x123456 2) := by
  decide
theorem test_decode_wrdi : decodeFrame Config.reference [0x04] = .ok .wireWrdi := by decide
theorem test_decode_rdsr : decodeFrame Config.reference [0x05, 0x00] = .ok .wireRdsr := by decide
theorem test_decode_wren : decodeFrame Config.reference [0x06] = .ok .wireWren := by decide
theorem test_decode_lpwp : decodeFrame Config.reference [0x08, 0x00] = .ok .wireLpwp := by decide
/-- R90: what is not in the command set, by name. -/
theorem test_decode_refuses :
    decodeFrame Config.reference [0x00] = .error .unknownOpcode ∧ decodeFrame Config.reference [0x07] = .error .unknownOpcode ∧
      decodeFrame Config.reference [0x09, 0x00] = .error .unknownOpcode ∧ decodeFrame Config.reference [] = .error .emptyFrame ∧
      decodeFrame Config.reference [0x05] = .error .badLength ∧ decodeFrame Config.reference [0x05, 0x01] = .error .badDummy ∧
      decodeFrame Config.reference [0x02, 0x00, 0x00, 0x00] = .error .badLength ∧
      decodeFrame Config.reference [0x03, 0x00, 0x00, 0x00] = .error .badLength ∧
      decodeFrame Config.reference [0x01, 0x00] = .error .badLength := by decide
/-- R88. -/
theorem test_decode_requests :
    decodeRequest (request 0b000 0x01ABCD 5 false []) = .ok (.hostRead ⟨7⟩ 0x01ABCD 5) ∧
      decodeRequest (request 0b001 0x0000FE 2 true [0x11, 0x22]) = .ok (.hostWrite ⟨7⟩ 0x0000FE [0x11, 0x22] true) ∧
      decodeRequest (request 0b010 0 0 false []) = .ok (.hostRdsr ⟨7⟩) ∧
      decodeRequest (request 0b011 0 0 false []) = .ok (.hostWren ⟨7⟩) ∧
      decodeRequest (request 0b100 0 0 false []) = .ok (.hostWrdi ⟨7⟩) ∧
      decodeRequest (request 0b101 0 0 false []) = .ok (.hostPoll ⟨7⟩) ∧
      decodeRequest (request 0b110 0 0 false []) = .ok .illegal6 ∧
      decodeRequest (request 0b111 0 0 false []) = .ok .illegal7 ∧
      decodeRequest (request 0b001 0 3 false [0x11]) = .error .payloadLength := by decide
/-- The opcode table's numbers (log 7). -/
theorem test_table_words :
    decodeTableWord 8 0 = some (.hostRead ⟨0⟩ 0 0) ∧ decodeTableWord 8 5 = some (.hostPoll ⟨0⟩) ∧
      decodeTableWord 8 7 = some .illegal7 ∧ decodeTableWord 16 0x0005 = some .wireRdsr ∧
      decodeTableWord 16 0x0008 = some .wireLpwp ∧ decodeTableWord 40 0x0000000002 = some (.wireWrite 0 [0]) ∧
      decodeTableWord 48 0x000012345603 = some (.wireRead 0x123456 2) ∧ decodeTableWord 8 9 = none := by decide

/-! ### The step runs what is placed -/

/-- From reset, the next step after a placed word answers a next state, for every row of the table that is run. -/
theorem test_placed_words_run :
    ([(8, 0), (8, 1), (8, 2), (8, 3), (8, 4), (8, 5), (8, 6), (8, 7), (16, 5), (16, 8), (40, 2), (40, 3)].all
      fun (n, w) => (nextOf (step (State.reset.withFetchWord n w))).isSome) = true := by decide
/-- A request, a poll frame, a data frame and a read-back frame are what the step runs. -/
theorem test_placed_words_are_run :
    (match activity (State.reset.withFetchWord 8 2) with | .run i _ => some i | _ => none) = some (.hostRdsr ⟨0⟩) ∧
      (match activity (State.reset.withFetchWord 16 8) with | .run i _ => some i | _ => none) = some .wireLpwp ∧
      (match activity (State.reset.withFetchWord 40 0x5A00010002) with | .run i _ => some i | _ => none) =
        some (.wireWrite 0x000100 [0x5A]) ∧
      (match activity (State.reset.withFetchWord 48 0x12345603) with | .run i _ => some i | _ => none) =
        some (.wireRead 0x123456 2) := by decide

/-! ### READ (B3) -/

theorem test_read_skips_four :
    seen (fun t => (t.blk.rsp, frames t))
        (exec (.hostRead ⟨7⟩ 0x01ABCD 5) (ready [] [⟨true, [0xA5, 0xA5, 0xA5, 0xA5, 0xEE, 0xCA, 0xDD, 0x32, 0x55]⟩])) =
      some (some (.success (.data [0xEE, 0xCA, 0xDD, 0x32, 0x55])), [[0x03, 0xCD, 0xAB, 0x01, 0, 0, 0, 0, 0]]) := by decide
theorem test_read_bounds :
    seen (fun t => (t.blk.rsp, frames t)) (exec (.hostRead ⟨7⟩ 0 0) (ready [] [])) = some (some (.failure .boundsError), []) ∧
      seen (fun t => (t.blk.rsp, frames t)) (exec (.hostRead ⟨7⟩ 0 257) (ready [] [])) =
        some (some (.failure .boundsError), []) := by decide
/-- From `Verifying` the READ frame is the read-back: T15, the first byte differs. -/
theorem test_read_frame_verifies :
    seen (fun t => (t.blk.seq, t.blk.rsp))
        (exec (.wireRead 0x000010 3) (inWrite .verifying true none 0 [⟨true, [0, 0, 0, 0, 0xAB, 0xBB, 0xCC]⟩])) =
      some (.idle, some (.failure .verificationError)) ∧
    seen (fun t => (t.blk.seq, t.blk.rsp))
        (exec (.wireRead 0x000010 3) (inWrite .verifying true none 0 [⟨true, [0xAA, 0xBB, 0xCC, 0, 0xAA, 0xBB, 0xCC]⟩])) =
      some (.done, none) := by decide

/-- R158, R58: a mismatch leaves the device alone. -/
theorem test_read_back_changes_nothing :
    seen (fun t => t.env.dev)
        (exec (.wireRead 0x000010 3) (inWrite .verifying true none 0 [⟨true, [0, 0, 0, 0, 0xAA, 0xBB, 0xCD]⟩])) =
      some Device.reset := by decide

/-! ### RDSR (B4) -/

theorem test_rdsr_returns_any_byte :
    seen (fun t => (t.blk.rsp, frames t)) (exec (.hostRdsr ⟨7⟩) (ready [] [⟨true, [0xA5, 0x55]⟩])) =
      some (some (.success (.byte 0x55)), [[0x05, 0x00]]) := by decide
theorem test_rdsr_frame_failed :
    seen (fun t => t.blk.rsp) (exec .wireRdsr (ready [] [⟨false, [0xA5, 0x00]⟩])) = some (some (.failure .transportError)) := by
  decide

/-! ### WREN, WRDI (B5, P3) -/

theorem test_wren_sets_latch :
    seen (fun t => (t.blk.rsp, t.env.dev.wel, frames t)) (exec (.hostWren ⟨7⟩) (onStub [] Device.reset StubSetup.reset)) =
      some (some (.success .nothing), true, [[0x06]]) := by decide
theorem test_wren_frame_failed :
    seen (fun t => (t.blk.rsp, t.env.dev.wel))
        (exec .wireWren (onStub [] Device.reset { StubSetup.reset with failAt := [1] })) =
      some (some (.failure .transportError), false) := by decide
theorem test_wrdi_clears_latch :
    seen (fun t => (t.blk.rsp, t.env.dev.wel, frames t))
        (exec (.hostWrdi ⟨7⟩) (ready [] [⟨true, [0]⟩] |> fun s =>
          { s with env := { s.env with dev := { Device.reset with wel := true } } })) =
      some (some (.success .nothing), false, [[0x04]]) := by decide
theorem test_wrdi_frame_failed :
    seen (fun t => t.blk.rsp) (exec .wireWrdi (ready [] [⟨false, []⟩])) = some (some (.failure .transportError)) := by decide

/-! ### POLL and its frame (B6, T8, T9) -/

theorem test_poll_whole_byte :
    ([0x00, 0xFF, 0x55, 0x01, 0xFE, 0x80, 0xA5].map fun b =>
        seen (fun t => t.blk.rsp) (exec (.hostPoll ⟨7⟩) (ready [] [⟨true, [0x55, b]⟩]))) =
      [some (some (.success (.byte 0x00))), some (some (.success (.byte 0xFF))), some (some (.failure .protocolError)),
        some (some (.failure .protocolError)), some (some (.failure .protocolError)),
        some (some (.failure .protocolError)), some (some (.failure .protocolError))] := by decide
theorem test_poll_failed_is_not_looked_at :
    seen (fun t => t.blk.rsp) (exec (.hostPoll ⟨7⟩) (ready [] [⟨false, [0, 0x00]⟩])) =
      some (some (.failure .transportError)) := by decide
theorem test_poll_frame_bound :
    seen (fun t => (t.blk.seq, t.blk.rsp)) (exec .wireLpwp (inWrite .polling false (some 3) 2 [⟨true, [0, 0xFF]⟩])) =
        some (.idle, some (.failure .timeout)) ∧
      seen (fun t => (t.blk.seq, t.blk.rsp)) (exec .wireLpwp (inWrite .polling false (some 3) 2 [⟨true, [0, 0x00]⟩])) =
        some (.done, none) ∧
      seen (fun t => (t.blk.seq, t.blk.pollCount)) (exec .wireLpwp (inWrite .polling true (some 3) 1 [⟨true, [0, 0xFF]⟩])) =
        some (.polling, 2) := by decide
theorem test_poll_frame_bad_byte :
    seen (fun t => (t.blk.seq, t.blk.rsp)) (exec .wireLpwp (inWrite .polling true (some 3) 2 [⟨true, [0, 0x7F]⟩])) =
      some (.idle, some (.failure .protocolError)) := by decide

/-- A WRITE in `Polling`, whose data frame met a device that was busy. -/
def retried (v : Bool) (as : List Answer) : State :=
  let s := inWrite .polling v none 0 as
  { s with env := { s.env with dev :=
    { mem := [(0x10, 0x77)], wel := true, busyLeft := 1, lastData := some ⟨0x10, [0xAA, 0xBB, 0xCC], false⟩, latchOpen := true } } }
/-- R28: the payload stands once the device reports idle, also where the data frame met a busy device. -/
theorem test_write_after_abort_is_stored :
    seen (fun t => (t.env.dev.mem, t.env.dev.wel)) (step (retried false [⟨true, [0, 0]⟩])) =
      some ([(0x10, 0xAA), (0x11, 0xBB), (0x12, 0xCC)], false) := by decide
/-- R160, B7: the content differs from the payload `[AA BB CC]`, before the read-back that shows it. -/
theorem test_content_differs_before_read_back :
    seen (fun t => (t.blk.seq, t.env.dev.mem))
        (step (retried true [⟨true, [0, 0]⟩, ⟨true, [0, 0, 0, 0, 0xAA, 0xBB, 0xCD]⟩])) =
      some (.verifying, [(0x10, 0xAA), (0x11, 0xBB), (0x12, 0xCD)]) := by decide

/-- R58, R215: a poll of an idle device, answered `BUSY` and then `IDLE`, leaves the latch set. -/
theorem test_polls_keep_latch :
    ((({ (ready [] [⟨true, [0, 0xFF]⟩, ⟨true, [0, 0x00]⟩]).env with dev := { Device.reset with wel := true } } : Env).after ⟨7⟩
        lpwpFrame).after ⟨7⟩ lpwpFrame).dev = { Device.reset with wel := true } := by decide

/-! ### WRITE (B2, B7) -/

/-- T20: the row is crossed by one byte. -/
theorem test_write_row_crossed :
    seen (fun t => (t.blk.rsp, frames t)) (exec (.hostWrite ⟨7⟩ 0x0000FF [0x01, 0x02] true) (ready [] [])) =
      some (some (.failure .boundsError), []) := by decide
theorem test_write_latches :
    seen (fun t => (t.blk.seq, t.blk.opAddr, t.blk.opVerify))
          (exec (.hostWrite ⟨7⟩ 0x000010 [0xAA, 0xBB, 0xCC] true) (ready [] [⟨true, [0]⟩])) =
        some (.latchEnabled, 0x000010, true) ∧
      seen (fun t => (livePayload t, frames t))
          (exec (.hostWrite ⟨7⟩ 0x000010 [0xAA, 0xBB, 0xCC] true) (ready [] [⟨true, [0]⟩])) =
        some ([0xAA, 0xBB, 0xCC], [[0x06]]) := by decide
/-- T4: no `[04]` frame follows. -/
theorem test_data_frame_failed :
    seen (fun t => (t.blk.seq, t.blk.rsp, frames t))
        (step (inWrite .latchEnabled true none 0 [⟨false, []⟩])) =
      some (.idle, some (.failure .transportError), [[0x02, 0x10, 0x00, 0x00, 0xAA, 0xBB, 0xCC]]) := by decide
/-- P1, call 2: what the stub stores. -/
theorem test_data_frame_stored_by_stub :
    seen (fun t => (t.blk.seq, t.env.dev))
        (exec (.wireWrite 0x01ABCD [0xEE, 0xCA, 0xDD, 0x32, 0x55])
          { onStub [] { Device.reset with wel := true } { StubSetup.reset with busyPolls := 2 } with
            blk := { Block.reset with seq := .latchEnabled } }) =
      some (.dataSent,
        { mem := [(0x01ABCD, 0xEE), (0x01ABCE, 0xCA), (0x01ABCF, 0xDD), (0x01ABD0, 0x32), (0x01ABD1, 0x55)]
          wel := false, busyLeft := 2, lastData := none, latchOpen := false }) := by decide
/-- B2. -/
theorem test_write_ok_table :
    ([(0x000000, 1), (0x000000, 256), (0x000001, 255), (0x0000FF, 1), (0x01ABCD, 51), (0xFFFF00, 256), (0xFFFFFF, 1)].all
        fun (a, l) => writeOk Config.reference a l) = true ∧
      ([(0x000000, 257), (0x000001, 256), (0x0000FF, 2), (0x01ABCD, 52), (0xFFFFFF, 2), (0x00FFFF, 2), (0x000000, 0)].all
        fun (a, l) => !writeOk Config.reference a l) = true := by decide
/-- B2, with `ROW_BITS` overridden. -/
theorem test_write_ok_wide_rows :
    (([(0x0000FF, 2), (0x000001, 256), (0x000300, 256)].all fun (a, l) => writeOk { Config.reference with rowBits := 10 } a l) &&
      ([(0x0003FF, 2), (0x000301, 256), (0x000000, 257)].all fun (a, l) =>
        !writeOk { Config.reference with rowBits := 10 } a l)) = true := by decide

/-! ### Illegal selectors, WRSR, the ports, reset -/

theorem test_illegal_selectors :
    seen (fun t => (t.blk.rsp, frames t)) (exec .illegal6 (ready [] [])) = some (some (.failure .illegalRequest), []) ∧
      seen (fun t => (t.blk.rsp, frames t)) (exec .illegal7 (ready [] [])) = some (some (.failure .illegalRequest), []) := by
  decide
theorem test_wrsr_refused : exec .wireWrsr State.reset = .refused .wrsrNeverSent := rfl
theorem test_malformed_request :
    (match step (ready [request 1 0 3 false [0x11]] []) with | .fault f => some f | _ => none) = some .malformedRequest := by decide
/-- R66: a request outside `Idle` waits. -/
theorem test_request_waits :
    seen (fun t => (t.blk.seq, t.host.requests.length))
        (step { inWrite .dataSent true none 0 [] with host := { HostPort.reset with requests := [request 2 0 0 false []] } }) =
      some (.polling, 1) := by decide
/-- R222: the response is taken, and then the next request is accepted. -/
theorem test_response_taken :
    seen (fun t => (t.blk.rsp, t.host.received)) (step
        { ready [request 2 0 0 false []] [] with blk := { Block.reset with rsp := some (.failure .timeout) } }) =
      some (none, [.failure .timeout]) := by decide
/-- R211: reset in the middle of a WRITE. -/
theorem test_reset_abandons :
    seen (fun t => (t.blk.seq, t.blk.rsp, frames t, t.host.resetLine)) (step
        { inWrite .polling true none 0 [] with host := { HostPort.reset with resetLine := true } }) =
      some (.idle, none, [], false) := by decide

/-! ### Memory -/

theorem test_memory_canonical :
    memWrite (memWrite (memWrite [] 5 0x11) 3 0x22) 5 0x00 = [(3, 0x22)] ∧ Memory.wf [(3, 0x22), (5, 0x11)] = true ∧
      Memory.wf [(5, 0x11), (3, 0x22)] = false ∧ Memory.wf [(3, 0x00)] = false ∧ Memory.wf [(16777216, 0x11)] = false := by
  decide
/-- R76: an address past the top of the stub's array lands at its bottom; a device of 16 bytes has no address 16 (R59). -/
theorem test_top_of_memory :
    storeRun stubPlace [] 0xFFFFFF [0x11, 0x22] = [(0, 0x22), (0xFFFFFF, 0x11)] ∧
      storeRun (devicePlace 16) [] 15 [0x11, 0x22] = [(15, 0x11)] := by decide

/-! ### Witnesses: concrete states and operands that meet the hypotheses of the statements, clause by clause -/

/-- The payload of the witnesses, at the last address of a row that takes it. -/
def payload : Bytes := [0x11, 0x22]

/-- A WRITE and a READ of the same range, for the stub. -/
def writeThenRead : List Request := [request 1 0x0000FE 2 true payload, request 0 0x0000FE 2 false []]

theorem witness_EncodeDecodeRoundTrip :
    (Instr.wireWrite 0xFFFFFF [0xFF]).wf Config.reference = true ∧ (Instr.wireRead 0xFFFFFF 256).wf Config.reference = true ∧
      Instr.illegal7.wf Config.reference = true := by decide

/-- A READ frame whose pads are not zero, and a frame that is no READ. -/
theorem witness_DecodedFramesAreEncodings :
    decodeFrame Config.reference [0x03, 0xFF, 0xFF, 0xFF, 0x77] = .ok (.wireRead 0xFFFFFF 1) ∧
      decodeFrame Config.reference [0x02, 0x00, 0x00, 0x00, 0x77] = .ok (.wireWrite 0 [0x77]) ∧
      ∀ a n, Instr.wireWrite 0 [0x77] ≠ .wireRead a n := by
  refine ⟨by decide, by decide, fun _ _ h => by cases h⟩

theorem witness_OpcodeMapInFull :
    decodeFrame { Config.reference with maxRead := 256 } [0x02, 0xFF, 0xFF, 0xFF, 0x77] = .ok (.wireWrite 0xFFFFFF [0x77]) ∧
      decodeFrame Config.reference [0x03, 0x00, 0x00, 0x00, 0x77] = .ok (.wireRead 0 1) := by decide

theorem witness_RequestSelectorTable :
    (List.range 8).all (fun n => decide ((request (BitVec.ofNat 3 n) 0 0 false []).op = BitVec.ofNat 3 n)) = true ∧
      (request 1 0 2 true payload).data.length = (request 1 0 2 true payload).len := by decide

/-- Lengths 1, 256 and 257, one row and two, at both row sizes. -/
theorem witness_BoundsCheckArithmetic :
    Config.reference.rowBits = 8 ∧ row Config.reference 0x000000 = row Config.reference (0x000000 + 256 - 1) ∧
      row Config.reference 0xFFFFFF = row Config.reference (0xFFFFFF + 1 - 1) ∧
      row Config.reference (0x0000FF + 2 - 1) = row Config.reference 0x0000FF + 1 ∧
      { Config.reference with rowBits := 10 }.rowBits = 10 ∧ 256 < 257 := by decide

theorem witness_RejectedWriteSendsNothing :
    (ready [] []).accepting = true ∧ ¬ SameRow Config.reference 0x0000FE [0x01, 0x02, 0x03].length ∧
      ¬ SameRow Config.reference 0x000000 ([] : Bytes).length ∧ ¬ SameRow Config.reference 0xFFFFFF payload.length := by
  unfold SameRow; decide

/-- Both answers of the write-enable frame. -/
theorem witness_AcceptedWriteSendsWriteEnable :
    (ready [] [⟨true, [0]⟩]).accepting = true ∧ SameRow Config.reference 0x0000FE payload.length ∧
      ((ready [] [⟨true, [0]⟩]).env.answer [0x06]).ok = true ∧ ((ready [] [⟨false, [0]⟩]).env.answer [0x06]).ok = false := by
  unfold SameRow; decide

theorem witness_DataFrameStep :
    (inWrite .latchEnabled true none 0 []).blk.seq = .latchEnabled ∧
      (inWrite .latchEnabled true none 0 []).host.resetLine = false ∧
      ((inWrite .latchEnabled true none 0 [⟨true, []⟩]).env.answer [0x02, 0x10, 0x00, 0x00, 0xAA]).ok = true ∧
      ((inWrite .latchEnabled true none 0 [⟨false, []⟩]).env.answer [0x02, 0x10, 0x00, 0x00, 0xAA]).ok = false := by decide

theorem witness_EnterPollingStep :
    (inWrite .dataSent true (some 3) 2 []).blk.seq = .dataSent ∧ (inWrite .dataSent true (some 3) 2 []).host.resetLine = false := by
  decide

/-- Every verdict of the poll byte, below the bound, at the bound and without one. -/
theorem witness_PollStep :
    (inWrite .polling true (some 3) 2 []).blk.seq = .polling ∧ (inWrite .polling true (some 3) 2 []).host.resetLine = false ∧
      ((inWrite .polling true (some 3) 2 [⟨false, []⟩]).env.answer [0x08, 0x00]).ok = false ∧
      (inWrite .polling true (some 3) 2 [⟨true, [0, 0x00]⟩]).env.answer [0x08, 0x00] = ⟨true, [0, 0x00]⟩ ∧
      (inWrite .polling true (some 3) 2 [⟨true, [0, 0xFF]⟩]).env.answer [0x08, 0x00] = ⟨true, [0, 0xFF]⟩ ∧
      (inWrite .polling true (some 3) 2 [⟨true, [0, 0x01]⟩]).env.answer [0x08, 0x00] = ⟨true, [0, 0x01]⟩ ∧
      (inWrite .polling true (some 3) 2 []).cfg.pollMax = some 3 ∧ 3 ≤ 2 + 1 ∧ 1 + 1 < 3 ∧
      (inWrite .polling true none 2 []).cfg.pollMax = none := by decide

theorem witness_VerificationStep :
    (inWrite .verifying true none 0 []).blk.seq = .verifying ∧ (inWrite .verifying true none 0 []).host.resetLine = false ∧
      (inWrite .verifying true none 0 []).blk.opLen ≤ [0xAA, 0xBB, 0xCC].length ∧
      (inWrite .verifying true none 0 []).blk.pbuf.take 3 = [0xAA, 0xBB, 0xCC] := by decide

/-- The answers of a read-back that is equal and of one that differs in its last byte. -/
theorem witness_VerificationStep_answers :
    ((inWrite .verifying true none 0 [⟨true, [1, 2, 3, 4, 0xAA, 0xBB, 0xCC]⟩]).env.answer (readFrame 0x10 3)).rx.drop 4 =
        [0xAA, 0xBB, 0xCC] ∧
      ((inWrite .verifying true none 0 [⟨true, [1, 2, 3, 4, 0xAA, 0xBB, 0xCD]⟩]).env.answer (readFrame 0x10 3)).rx.drop 4 =
        [0xAA, 0xBB, 0xCD] ∧
      ((inWrite .verifying true none 0 [⟨false, []⟩]).env.answer (readFrame 0x10 3)).ok = false := by decide

theorem witness_DoneReportsSuccess :
    (inWrite .done true none 0 []).blk.seq = .done ∧ (inWrite .done true none 0 []).host.resetLine = false := by decide

/-- A step from each sequencer state answers a next state. -/
theorem witness_StateGraphArrows :
    ([SeqState.idle, .latchEnabled, .dataSent, .polling, .verifying, .done].all fun q =>
      (nextOf (step (inWrite q true none 0 []))).isSome && !(inWrite q true none 0 []).host.resetLine) = true := by decide

/-- A request for a WRITE on the port, and a function that ends: rejected, and run to `Success` with verification. -/
theorem witness_StepsComputeWriteFunction :
    (ready [request 1 0x0000FE 2 true payload] []).accepting = true ∧
      decodeRequest (request 1 0x0000FE 2 true payload) = .ok (.hostWrite ⟨7⟩ 0x0000FE payload true) ∧
      (writeFunction Config.reference 0 ⟨7⟩ 0x0000FF payload true Env.reset).map Prod.fst = some (.failure .boundsError) ∧
      (writeFunction Config.reference 2 ⟨7⟩ 0x0000FE payload true
          (ready [] [⟨true, []⟩, ⟨true, []⟩, ⟨true, [0, 0xFF]⟩, ⟨true, [0, 0]⟩, ⟨true, [0, 0, 0, 0, 0x11, 0x22]⟩]).env).map
        Prod.fst = some (.success .nothing) := by decide

/-- Each result of a WRITE: what `WriteCallSequence` says of it is said of a run that exists. -/
theorem witness_WriteCallSequence :
    ([[⟨false, []⟩], [⟨true, []⟩, ⟨false, []⟩], [⟨true, []⟩, ⟨true, []⟩, ⟨false, []⟩], [⟨true, []⟩, ⟨true, []⟩, ⟨true, [0, 1]⟩],
        [⟨true, []⟩, ⟨true, []⟩, ⟨true, [0, 255]⟩, ⟨true, [0, 255]⟩],
        [⟨true, []⟩, ⟨true, []⟩, ⟨true, [0, 0]⟩, ⟨true, [0, 0, 0, 0, 0x11, 0x23]⟩],
        [⟨true, []⟩, ⟨true, []⟩, ⟨true, [0, 0]⟩, ⟨false, []⟩]].map fun as =>
      (writeFunction { Config.reference with pollMax := some 2 } 2 ⟨7⟩ 0x0000FE payload true (ready [] as).env).map
        fun r => (r.1.code, r.2.calls)) =
      [some (1, 1), some (1, 2), some (1, 3), some (3, 3), some (5, 4), some (4, 4), some (1, 4)] := by decide

/-- The answers `WriteCallSequence` speaks of: the last call failed, and the last poll's byte is no sentinel. -/
theorem witness_WriteCallSequence_answers :
    (answersTo (ready [] [⟨true, []⟩, ⟨false, []⟩]).env [⟨⟨7⟩, [0x06]⟩, ⟨⟨7⟩, dataFrame 0x0000FE payload⟩]).map Answer.ok =
        [true, false] ∧
      (answersTo (ready [] [⟨true, [0]⟩, ⟨true, []⟩, ⟨true, [0, 0xFF]⟩, ⟨true, [0, 1]⟩]).env
          [⟨⟨7⟩, [0x06]⟩, ⟨⟨7⟩, dataFrame 0x0000FE payload⟩, ⟨⟨7⟩, [0x08, 0x00]⟩, ⟨⟨7⟩, [0x08, 0x00]⟩]).drop 2 =
        [⟨true, [0, 0xFF]⟩, ⟨true, [0, 1]⟩] := by decide

/-- Two polls are answered `BUSY`: the function is not over within two polls. -/
theorem witness_UnfinishedWriteHasNoResult :
    (ready [request 1 0x0000FE 2 true payload] []).host.requests = [request 1 0x0000FE 2 true payload] ∧
      (writeFunction Config.reference 2 ⟨7⟩ 0x0000FE payload true
          (ready [] [⟨true, []⟩, ⟨true, []⟩, ⟨true, [0, 0xFF]⟩, ⟨true, [0, 0xFF]⟩]).env).isNone = true := by decide

theorem witness_BusyAnswersKeepPolling :
    (inWrite .polling true none 0 (List.replicate 2 ⟨true, [0x55, 0xFF]⟩)).env.answers =
        List.replicate 2 ⟨true, [0x55, 0xFF]⟩ ++ [] ∧
      (inWrite .polling true none 0 []).blk.rsp = none ∧ (inWrite .polling true none 0 []).cfg.pollMax = none ∧
      (inWrite .polling true none 0 []).env.transport = .unconstrained := by decide

theorem witness_BoundedPollingEnds :
    (inWrite .polling true (some 1) 0 []).cfg.pollMax = some 1 ∧ (inWrite .polling true (some 1) 0 []).blk.pollCount < 1 ∧
      (inWrite .polling true (some 1) 0 []).blk.seq = .polling ∧ (inWrite .polling true (some 1) 0 []).host.resetLine = false := by
  decide

/-- An accepting state, a count at each bound and past it, and both outcomes of the call. -/
theorem witness_ReadReturnsRequestedBytes :
    (ready [] []).accepting = true ∧ (1 ≤ 256 ∧ 256 ≤ Config.reference.maxRead) ∧ Config.reference.maxRead < 257 ∧
      ((ready [] [⟨true, [0, 0, 0, 0, 0x9C]⟩]).env.answer (readFrame 0xFFFFFF 1)) = ⟨true, [0, 0, 0, 0, 0x9C]⟩ ∧
      ((ready [] [⟨false, []⟩]).env.answer (readFrame 0xFFFFFF 1)).ok = false := by decide

/-- Both outcomes of the two-byte and the one-byte frames, on an idle device. -/
theorem witness_single_frame_operations :
    (ready [] []).accepting = true ∧ (ready [] []).env.dev.busyLeft = 0 ∧
      ((ready [] [⟨true, [0, 0x55]⟩]).env.answer [0x05, 0x00]) = ⟨true, [0, 0x55]⟩ ∧
      ((ready [] [⟨true, [0, 0xFF]⟩]).env.answer [0x08, 0x00]) = ⟨true, [0, 0xFF]⟩ ∧
      ((ready [] [⟨true, [0, 0x00]⟩]).env.answer [0x08, 0x00]) = ⟨true, [0, 0x00]⟩ ∧
      ((ready [] [⟨true, [0, 0xFE]⟩]).env.answer [0x08, 0x00]) = ⟨true, [0, 0xFE]⟩ ∧
      ((ready [] [⟨true, [0]⟩]).env.answer [0x06]).ok = true ∧ ((ready [] [⟨false, [0]⟩]).env.answer [0x04]).ok = false := by
  decide

/-- Each frame from `Idle`, and a state for each refusal. -/
theorem witness_OtherFramesAreRefused :
    (ready [] []).blk.seq ≠ .latchEnabled ∧ (inWrite .done true none 0 []).blk.seq ≠ .idle ∧
      (inWrite .done true none 0 []).blk.seq ≠ .verifying ∧ (inWrite .done true none 0 []).blk.seq ≠ .polling ∧
      (inWrite .done true none 0 []).accepting = false ∧
      (inWrite .idle true none 0 []).blk.seq = .idle ∧ pendingResponse.blk.seq = .idle ∧ pendingResponse.accepting = false := by
  decide

/-- A step that makes a call, for the statements about every step. -/
theorem witness_steps :
    seen frames (step (ready [request 4 0 0 false []] [⟨true, []⟩])) = some [[0x04]] ∧
      seen (fun t => t.blk.txbuf) (step (inWrite .polling true none 0 [⟨true, [0, 0]⟩])) = some [0x08, 0x00] := by
  decide

theorem witness_StepRunsDecodedInstruction :
    (ready [request 5 0 0 false []] []).host.requests = [request 5 0 0 false []] ∧
      decodeRequest (request 5 0 0 false []) = .ok (.hostPoll ⟨7⟩) ∧ (ready [request 5 0 0 false []] []).accepting = true := by
  decide

theorem witness_RequestWaitsUntilIdle :
    (inWrite .polling true none 0 []).accepting = false ∧
      pendingResponse.accepting = false := by decide

theorem witness_HostTakesResponse :
    pendingResponse.blk.rsp =
        some (.failure .timeout) ∧ (ready [] []).blk.rsp = none ∧ (ready [] []).host.requests = [] := by decide

/-- A step that ends in an error, from each state that can end in one. -/
theorem witness_ErrorKindsByOperation :
    ([inWrite .latchEnabled true none 0 [⟨false, []⟩], inWrite .polling true none 0 [⟨true, [0, 1]⟩],
        inWrite .polling true (some 1) 0 [⟨true, [0, 255]⟩], inWrite .verifying true none 0 [⟨true, [0, 0, 0, 0, 0, 0, 0]⟩],
        ready [request 0 0 0 false []] [], ready [request 6 0 0 false []] [],
        ready [request 5 0 0 false []] [⟨true, [0, 1]⟩]].map fun s => seen (fun t => t.blk.rsp.map Response.code) (step s)) =
      [some (some 1), some (some 3), some (some 5), some (some 4), some (some 2), some (some 6), some (some 3)] := by decide

theorem witness_ResetAbandonsOperation :
    ({ ready [] [] with host := { HostPort.reset with resetLine := true } } : State).host.resetLine = true := by decide

/-- A state in the middle of a WRITE that meets the invariant, with something stored in the device. -/
theorem witness_StepKeepsInvariant :
    Inv { inWrite .polling true (some 3) 2 [] with env := { Env.reset with dev := { Device.reset with mem := [(16, 0xAA)] } } } where
  params := by decide
  memory := by decide
  payload := by
    show ([0xAA, 0xBB, 0xCC] ++ List.replicate 253 (0 : Byte)).length = 256
    rw [List.length_append, List.length_replicate]
    rfl
  buffers := rfl
  recorded := rfl
  progress := fun _ => ⟨rfl, rfl⟩
  bounds := by decide
  polls := fun _ n h => by cases h; decide

/-- A record that is no request, on the port of a block that is ready. -/
theorem witness_StepsStopOnlyOnMalformedRequest :
    (ready [request 1 0 3 false [0x11]] []).accepting = true ∧ (request 1 0 3 false [0x11]).op = 1 ∧
      (request 1 0 3 false [0x11]).data.length ≠ (request 1 0 3 false [0x11]).len := by decide

/-- Two states that differ in every register that is dead in `Idle`. -/
theorem witness_DeadRegistersDoNotMatter :
    LiveEq (ready [] []) { ready [] [] with blk := { Block.reset with
      opSel := .poll, opH := ⟨9⟩, opAddr := 1, opLen := 2, opVerify := true, pbuf := [], txbuf := [1], rxbuf := [2]
      pollCount := 3 } } where
  params := rfl
  host := rfl
  env := rfl
  seq := rfl
  rsp := rfl
  handle := fun h => by cases h
  operands := fun h => by cases h
  verify := fun h => by rcases h with h | h | h <;> cases h
  polls := fun h => by cases h

/-- An instruction of each shape answers a next state. -/
theorem witness_RegistersLeftUnchanged :
    (nextOf (exec (.hostPoll ⟨7⟩) (ready [] []))).isSome = true ∧ (nextOf (exec (.hostRead ⟨7⟩ 0 1) (ready [] []))).isSome = true ∧
      (nextOf (exec (.hostWrite ⟨7⟩ 0 [0] true) (ready [] []))).isSome = true ∧
      (nextOf (exec .wireLpwp (inWrite .polling true none 0 []))).isSome = true ∧
      (nextOf (exec .wireLpwp (ready [] []))).isSome = true ∧
      (nextOf (exec (.wireRead 0 1) (inWrite .verifying true none 0 []))).isSome = true ∧
      (nextOf (exec (.wireWrite 0 [0]) (inWrite .latchEnabled true none 0 []))).isSome = true := by decide

/-- A request and frames that store nothing, the READ frame from `Idle` and from `Verifying`, and a poll of an idle device. -/
theorem witness_OtherInstructionsStoreNothing :
    (nextOf (exec (.hostRdsr ⟨7⟩) (ready [] []))).isSome = true ∧ (ready [] []).env.dev.busyLeft = 0 ∧
      (nextOf (exec (.hostPoll ⟨7⟩) (ready [] [⟨true, [0, 0xFF]⟩]))).isSome = true ∧
      (nextOf (exec (.wireRead 0 1) (ready [] []))).isSome = true ∧
      seen (fun t => t.blk.rsp) (exec (.wireRead 0x000010 3)
          (inWrite .verifying true none 0 [⟨true, [0, 0, 0, 0, 0xAA, 0xBB, 0xCC]⟩])) = some none := by decide

/-- A data frame and an address it does not store to, next to one it does; a poll with a write in progress; a read-back. -/
theorem witness_StoresStayInTheAddressedRange :
    Memory.wf ([(16, 0x77)] : Memory) = true ∧
      ((nextOf (exec (.wireWrite 0 [0]) (inWrite .latchEnabled true none 0 []))).isSome &&
        (nextOf (exec .wireLpwp (retried true [⟨true, [0, 0]⟩]))).isSome &&
        (nextOf (exec (.wireRead 0x000010 1) (inWrite .verifying true none 0 []))).isSome) = true ∧
      StoredTo Env.reset 0x10 1 0x10 ∧ ¬ StoredTo Env.reset 0x10 1 0x11 := by
  refine ⟨by decide, by decide, ⟨0, by decide, by decide⟩, ?_⟩
  rintro ⟨i, hi, h⟩
  have hi0 : i = 0 := by omega
  subst hi0
  exact absurd h (by decide)

theorem witness_UnconstrainedTransportAnswersAnything :
    Env.reset.transport = .unconstrained ∧ ([0x5A] : Bytes).length = wrenFrame.length := by decide

/-- Two answers to a poll that agree on byte 1, two that failed, and two answers to a READ that agree from byte 4 on. -/
theorem witness_DiscardedBytesDoNotMatter :
    UsedBytesAgree .wireLpwp [0x55, 0xFF] [0xAA, 0xFF] ∧ UsedBytesAgree (.hostWren ⟨7⟩) [0x55] [0xAA] ∧
      (nextOf (exec (.hostRead ⟨7⟩ 0 1) (ready [] [⟨true, [1, 2, 3, 4, 5]⟩]))).isSome = true ∧
      UsedBytesAgree (.hostRead ⟨7⟩ 0 1) [1, 2, 3, 4, 5] [6, 7, 8, 9, 5] := by
  refine ⟨rfl, trivial, by decide, fun j hj => ?_⟩
  have hj0 : j = 0 := by omega
  subst hj0
  rfl

/-- An idle device and a busy one, the latch set, and the answers the clauses speak of. -/
theorem witness_LatchEventsOfTheDevice :
    Env.reset.transport = .unconstrained ∧ Device.reset.busyLeft = 0 ∧ 0 < ({ Device.reset with busyLeft := 1 } : Device).busyLeft ∧
      ({ Device.reset with wel := true } : Device).wel = true ∧ payload ≠ [] ∧
      ((ready [] [⟨true, []⟩]).env.answer (dataFrame 0 payload)).ok = true ∧
      ((ready [] [⟨true, []⟩]).env.answer [0x06]).ok = true ∧ ((ready [] [⟨true, []⟩]).env.answer [0x04]).ok = true ∧
      ({ Device.reset with busyLeft := 1 } : Device).latchOpen = false ∧
      (ready [] [⟨true, [0, 0]⟩]).env.answer [0x08, 0x00] = ⟨true, [0, 0]⟩ ∧
      (ready [] [⟨true, [0, 0xFF]⟩]).env.answer [0x08, 0x00] = ⟨true, [0, 0xFF]⟩ ∧
      ((ready [] [⟨false, []⟩]).env.answer [0x08, 0x00]).ok = false ∧
      (readFrame 0 1).head? ≠ some 0x02 ∧ (readFrame 0 1).head? ≠ some 0x04 ∧ (readFrame 0 1).head? ≠ some 0x06 := by decide

/-- Every exit of a WRITE that `DeviceAfterErrorExits` speaks of, by result and number of calls. -/
theorem witness_DeviceAfterErrorExits :
    ([[⟨false, []⟩], [⟨true, []⟩, ⟨false, []⟩], [⟨true, []⟩, ⟨true, []⟩, ⟨false, []⟩],
        [⟨true, []⟩, ⟨true, []⟩, ⟨true, [0, 255]⟩, ⟨true, [0, 255]⟩], [⟨true, []⟩, ⟨true, []⟩, ⟨true, [0, 1]⟩],
        [⟨true, []⟩, ⟨true, []⟩, ⟨true, [0, 0]⟩, ⟨false, []⟩],
        [⟨true, []⟩, ⟨true, []⟩, ⟨true, [0, 0]⟩, ⟨true, [0, 0, 0, 0, 0x11, 0x23]⟩]].map fun as =>
      (writeFunction { Config.reference with pollMax := some 2 } 2 ⟨7⟩ 0x0000FE payload true (ready [] as).env).map
        fun r => (r.1.code, r.2.calls, decide (r.2.log.getLast?.map Call.tx = some (readFrame 0x0000FE 2)))) =
      [some (1, 1, false), some (1, 2, false), some (1, 3, false), some (5, 4, false), some (3, 3, false), some (1, 4, true),
        some (4, 4, true)] ∧
      (writeFunction Config.reference 0 ⟨7⟩ 0x0000FF payload true Env.reset).map Prod.fst = some (.failure .boundsError) ∧
      Memory.wf Env.reset.dev.mem = true ∧ Env.reset.transport = .unconstrained ∧ Env.reset.calls = 0 ∧
      (0x0000FE : Addr).toNat + payload.length ≤ Env.reset.setup.devSize := by decide

/-- A step that ends in each of its exits from `Polling`, and a step of the read-back. -/
theorem witness_DeviceAfterErrorExits_steps :
    ([inWrite .polling true none 0 [⟨false, []⟩], inWrite .polling true (some 1) 0 [⟨true, [0, 0xFF]⟩],
        inWrite .polling true none 0 [⟨true, [0, 1]⟩], inWrite .verifying true none 0 [⟨true, [0, 0, 0, 0, 0xAA, 0xBB, 0xCD]⟩]].map
          fun s => seen (fun t => t.blk.rsp.map Response.code) (step s)) =
        [some (some 1), some (some 5), some (some 3), some (some 4)] ∧
      (inWrite .verifying true none 0 []).env.transport = .unconstrained ∧ (inWrite .verifying true none 0 []).blk.rsp = none ∧
      (inWrite .verifying true none 0 []).host.resetLine = false := by decide

/-- From an idle device, and from one that is busy, with verification. -/
theorem witness_SuccessfulWriteStoresPayload :
    Memory.wf Env.reset.dev.mem = true ∧ 0x0000FE + 1 < Env.reset.setup.devSize ∧ Env.reset.transport = .unconstrained ∧
      (writeFunction Config.reference 1 ⟨7⟩ 0x0000FE payload true
          { (ready [] [⟨true, []⟩, ⟨true, []⟩, ⟨true, [0, 0]⟩, ⟨true, [0, 0, 0, 0, 0x11, 0x22]⟩]).env with
            dev := { Device.reset with busyLeft := 5 } }).map Prod.fst = some (.success .nothing) ∧
      (writeFunction Config.reference 1 ⟨7⟩ 0x0000FE payload false
          (ready [] [⟨true, []⟩, ⟨true, []⟩, ⟨true, [0, 0]⟩]).env).map Prod.fst = some (.success .nothing) := by decide

/-- The stub as R70 starts it, with something stored and a device that is busy for two polls, below a bound of three. -/
theorem witness_RoundTripAgainstStub :
    (onStub writeThenRead { Device.reset with mem := [(0xFE, 0x77)] } { StubSetup.reset with busyPolls := 2 }).accepting = true ∧
      (onStub writeThenRead { Device.reset with mem := [(0xFE, 0x77)] } StubSetup.reset).env.transport = .stub ∧
      Memory.wf (onStub writeThenRead { Device.reset with mem := [(0xFE, 0x77)] } StubSetup.reset).env.dev.mem = true ∧
      (onStub writeThenRead { Device.reset with mem := [(0xFE, 0x77)] } StubSetup.reset).env.dev.busyLeft = 0 ∧
      ({ Config.reference with pollMax := some 3 } : Config).wf = true ∧ 2 < 3 ∧ payload.length = 2 ∧
      (onStub writeThenRead Device.reset StubSetup.reset).env.setup.failAt = [] ∧
      (onStub writeThenRead Device.reset StubSetup.reset).env.setup.pollScript = none ∧
      (onStub writeThenRead Device.reset StubSetup.reset).env.setup.corrupt = none ∧
      (onStub writeThenRead Device.reset StubSetup.reset).host.resetLine = false := by decide

/-- `SameRow` of its operands. -/
theorem witness_RoundTripAgainstStub_row :
    SameRow { Config.reference with pollMax := some 3 } 0x0000FE payload.length := by unfold SameRow; decide

/-- A call that fails and one that does not; busy and idle; a script that is not over and one that is. -/
theorem witness_StubFrames :
    (onStub [] Device.reset { StubSetup.reset with failAt := [1] }).env.calls + 1 ∈ [1] ∧
      (onStub [] Device.reset StubSetup.reset).env.calls + 1 ∉ ([] : List Nat) ∧
      ((onStub [] { Device.reset with busyLeft := 1 } StubSetup.reset).env.answer [0x08, 0x00]).rx = [0xA5, 0xFF] ∧
      ((onStub [] Device.reset { StubSetup.reset with pollScript := some [0x55] }).env.answer [0x08, 0x00]).rx = [0xA5, 0x55] ∧
      ((onStub [] Device.reset { StubSetup.reset with pollScript := some [] }).env.answer [0x08, 0x00]).rx = [0xA5, 0x00] := by
  decide

/-- P5: the stub's variant `corrupt`, and a frame it does not know. -/
theorem witness_StubStoresDataFrame :
    ((onStub [] { Device.reset with wel := true } { StubSetup.reset with corrupt := some (0x000012, 0x00) }).env.after ⟨7⟩
        [0x02, 0x10, 0x00, 0x00, 0xAA, 0xBB, 0xCC]).dev.mem = [(0x10, 0xAA), (0x11, 0xBB)] ∧
      1 ≤ ([0xAA, 0xBB, 0xCC] : Bytes).length ∧
      (onStub [] Device.reset StubSetup.reset).env.answer [0x01] = ⟨true, [0xA5]⟩ := by decide

/-- R76: the frame is ignored with the latch clear, and while the stub is busy. -/
theorem witness_StubStoresDataFrame_ignored :
    ((onStub [] Device.reset StubSetup.reset).env.after ⟨7⟩ [0x02, 0x10, 0x00, 0x00, 0xAA]).dev = Device.reset ∧
      ((onStub [] { Device.reset with wel := true, busyLeft := 1 } StubSetup.reset).env.after ⟨7⟩
        [0x02, 0x10, 0x00, 0x00, 0xAA]).dev = { Device.reset with wel := true, busyLeft := 1 } := by decide

/-- R77: the same READ frame of an idle stub and of a busy one. -/
theorem witness_StubReadsAndIgnores :
    ((onStub [] { Device.reset with mem := [(0x10, 0xAA)] } StubSetup.reset).env.answer [0x03, 0x10, 0x00, 0x00, 0x00, 0x00]) =
        ⟨true, [0xA5, 0xA5, 0xA5, 0xA5, 0xAA, 0x00]⟩ ∧
      ((onStub [] { Device.reset with mem := [(0x10, 0xAA)], busyLeft := 1 } StubSetup.reset).env.answer
          [0x03, 0x10, 0x00, 0x00, 0x00, 0x00]) = ⟨true, [0xA5, 0xA5, 0xA5, 0xA5, 0xA5, 0xA5]⟩ := by decide

theorem witness_CanonicalMemoriesThatReadAlikeAreEqual :
    Memory.wf ([(3, 0x22), (16777215, 0x11)] : Memory) = true ∧ Memory.wf ([] : Memory) = true := by decide

end Sys2Proof.Machine
end

section
/-! The invariant (O41). It falls in two parts: what is asked of every state (`Kept`), and what a WRITE in progress has
established (`Latched`). An operation that ends in `Idle` needs the first part only; an arrow of the write sequencer carries
both along. -/

namespace Sys2Proof.Machine

/-- The clauses of `Inv` that do not look at the sequencer state. -/
structure Kept (s : State) : Prop where
  params : s.cfg.wf = true
  memory : Memory.wf s.env.dev.mem = true
  payload : s.blk.pbuf.length = 256
  buffers : s.blk.txbuf.length = s.blk.rxbuf.length
  recorded : s.env.log.length = s.env.calls

/-- A WRITE has been accepted within the bounds and has no response yet (R112, R222). -/
structure Latched (s : State) : Prop where
  pending : s.blk.rsp = none
  selector : s.blk.opSel = .write
  bounds : writeOk s.cfg s.blk.opAddr s.blk.opLen = true

/-- One more poll is allowed (R156). -/
def PollAllowed (c : Config) (k : Nat) : Prop := ∀ n, c.pollMax = some n → k < n

theorem pollAllowed_of_not_reached {c : Config} {k : Nat} (h : pollBoundReached c k = false) : PollAllowed c k := by
  intro n hn
  simpa [pollBoundReached, hn] using h

/-- `POLL_MAX` allows at least one poll (R5). -/
theorem pollAllowed_zero {c : Config} (hc : c.wf = true) : PollAllowed c 0 := by
  intro n hn
  simp only [Config.wf, hn, Bool.and_eq_true, decide_eq_true_eq, ne_eq, Option.some.injEq] at hc
  omega

section
variable {s t : State}

/-! ### The two parts and the invariant -/

theorem Inv.kept (hs : Inv s) : Kept s := ⟨hs.params, hs.memory, hs.payload, hs.buffers, hs.recorded⟩

theorem Inv.latched (hs : Inv s) (hq : s.blk.seq.inWrite = true) : Latched s := by
  have hidle : s.blk.seq ≠ .idle := fun h => by simp [h, SeqState.inWrite] at hq
  obtain ⟨hrsp, hsel⟩ := hs.progress hidle
  exact ⟨hrsp, hsel, hs.bounds hq⟩

theorem Kept.inv_of_idle (hs : Kept s) (hq : s.blk.seq = .idle) : Inv s where
  params := hs.params
  memory := hs.memory
  payload := hs.payload
  buffers := hs.buffers
  recorded := hs.recorded
  progress h := absurd hq h
  bounds h := by simp [hq, SeqState.inWrite] at h
  polls h := by simp [hq] at h

theorem Kept.inv_of_latched (hs : Kept s) (hl : Latched s)
    (hp : s.blk.seq = .polling → PollAllowed s.cfg s.blk.pollCount) : Inv s where
  params := hs.params
  memory := hs.memory
  payload := hs.payload
  buffers := hs.buffers
  recorded := hs.recorded
  progress _ := ⟨hl.pending, hl.selector⟩
  bounds _ := hl.bounds
  polls := hp

/-! ### What the updates keep -/

/-- `Kept` reads only the parameters, the three buffers and the environment. -/
theorem Kept.of_same (hs : Kept s) (hcfg : t.cfg = s.cfg := by rfl) (henv : t.env = s.env := by rfl)
    (hpbuf : t.blk.pbuf = s.blk.pbuf := by rfl) (htx : t.blk.txbuf = s.blk.txbuf := by rfl)
    (hrx : t.blk.rxbuf = s.blk.rxbuf := by rfl) : Kept t where
  params := hcfg ▸ hs.params
  memory := henv ▸ hs.memory
  payload := hpbuf ▸ hs.payload
  buffers := htx ▸ hrx ▸ hs.buffers
  recorded := henv ▸ hs.recorded

/-- `Latched` reads only the parameters, the response and three latches. -/
theorem Latched.of_same (hl : Latched s) (hcfg : t.cfg = s.cfg := by rfl) (hrsp : t.blk.rsp = s.blk.rsp := by rfl)
    (hsel : t.blk.opSel = s.blk.opSel := by rfl) (haddr : t.blk.opAddr = s.blk.opAddr := by rfl)
    (hlen : t.blk.opLen = s.blk.opLen := by rfl) : Latched t where
  pending := hrsp ▸ hl.pending
  selector := hsel ▸ hl.selector
  bounds := hcfg ▸ haddr ▸ hlen ▸ hl.bounds

theorem Kept.xfer (hs : Kept s) (h : Handle) (tx : Bytes) : Kept (xfer h tx s) where
  params := hs.params
  memory := wf_after s.env h tx hs.memory
  payload := hs.payload
  buffers := by simp
  recorded := by simp [hs.recorded]

theorem Kept.noteLoopEnd (hs : Kept s) (x : LoopEnd) : Kept (noteLoopEnd x s) where
  params := hs.params
  memory := wf_endLoop x s.env hs.memory
  payload := hs.payload
  buffers := hs.buffers
  recorded := hs.recorded

/-- A payload that passed the bounds check fits the buffer (R23). -/
theorem Kept.loadPayload (hs : Kept s) {d : Bytes} (hd : d.length ≤ 256) : Kept (loadPayload d s) where
  params := hs.params
  memory := hs.memory
  payload := by
    rw [loadPayload_pbuf, List.length_append, List.length_drop, hs.payload]
    omega
  buffers := hs.buffers
  recorded := hs.recorded

theorem Kept.resetBlock (hs : Kept s) : Kept (resetBlock s) where
  params := hs.params
  memory := hs.memory
  payload := by simp [Machine.resetBlock, Config.maxWrite]
  buffers := by simp [Machine.resetBlock]
  recorded := hs.recorded

/-! ### How an operation ends or goes on -/

theorem Kept.inv_respond (hs : Kept s) (r : Response) : Inv (respond r s) :=
  Kept.inv_of_idle hs.of_same rfl

theorem Kept.inv_setSeq (hs : Kept s) (hl : Latched s) {q : SeqState}
    (hp : q = .polling → PollAllowed s.cfg s.blk.pollCount) : Inv (setSeq q s) :=
  Kept.inv_of_latched hs.of_same hl.of_same hp

variable {h : Handle} {tx : Bytes} {k : Bytes → State → State}

/-- An exchange of a single-frame operation: whatever the answer, only `Kept` is needed to end it. -/
theorem Kept.inv_exchange (hs : Kept s) (hk : ∀ rx t, Kept t → Inv (k rx t)) : Inv (exchange h tx k s) :=
  exchange_induct ((hs.xfer h tx).inv_respond _) fun _ => hk _ _ (hs.xfer h tx)

/-- An exchange of the write sequencer: the call leaves the latches alone. -/
theorem Kept.inv_exchange_latched (hs : Kept s) (hl : Latched s) (hk : ∀ rx t, Kept t → Latched t → Inv (k rx t)) :
    Inv (exchange h tx k s) :=
  exchange_induct ((hs.xfer h tx).inv_respond _) fun _ => hk _ _ (hs.xfer h tx) hl.of_same

/-! ### The single-frame operations -/

theorem Kept.inv_readStep (hs : Kept s) (h : Handle) (a : Addr) (n : Nat) : Inv (readStep h a n s) := by
  unfold readStep
  split
  · exact hs.inv_exchange fun _ _ ht => ht.inv_respond _
  · exact hs.inv_respond _

theorem Kept.inv_rdsrStep (hs : Kept s) (h : Handle) : Inv (rdsrStep h s) :=
  hs.inv_exchange fun _ _ ht => ht.inv_respond _

theorem Kept.inv_wrenStep (hs : Kept s) (h : Handle) : Inv (wrenStep h s) :=
  hs.inv_exchange fun _ _ ht => ht.inv_respond _

theorem Kept.inv_wrdiStep (hs : Kept s) (h : Handle) : Inv (wrdiStep h s) :=
  hs.inv_exchange fun _ _ ht => ht.inv_respond _

theorem Kept.inv_pollOnce (hs : Kept s) (h : Handle) : Inv (pollOnce h s) :=
  hs.inv_exchange fun _ _ ht => by split <;> exact ht.inv_respond _

/-! ### The write sequencer -/

theorem Kept.inv_latchStep (hs : Kept s) (hl : Latched s) : Inv (latchStep s) :=
  hs.inv_exchange_latched hl fun _ _ ht htl => ht.inv_setSeq htl (by simp)

theorem Kept.inv_dataStep (hs : Kept s) (hl : Latched s) (a : Addr) (d : Bytes) : Inv (dataStep a d s) :=
  hs.inv_exchange_latched hl fun _ _ ht htl => ht.inv_setSeq htl (by simp)

theorem Kept.inv_enterPolling (hs : Kept s) (hl : Latched s) : Inv (enterPolling s) := by
  refine Kept.inv_of_latched hs.of_same hl.of_same fun _ n hn => ?_
  have hmax : s.cfg.pollMax = some n := hn
  simpa [enterPolling, hmax] using pollAllowed_zero hs.params n hmax

theorem Kept.inv_leavePolling (hs : Kept s) (hl : Latched s) : Inv (leavePolling s) :=
  (hs.noteLoopEnd _).inv_setSeq hl.of_same (by split <;> simp)

/-- The poll may have used up the bound; then the loop ends in `Timeout` and does not go on (R156). -/
theorem Kept.inv_pollAnswered (hs : Kept s) (hl : Latched s) (b : Byte) : Inv (pollAnswered b s) := by
  unfold pollAnswered
  split
  · exact hs.inv_leavePolling hl
  · split
    · exact (hs.noteLoopEnd _).inv_respond _
    · next hbound => exact hs.inv_setSeq hl fun _ => pollAllowed_of_not_reached hbound
  · exact (hs.noteLoopEnd _).inv_respond _

theorem Kept.inv_pollStep (hs : Kept s) (hl : Latched s) : Inv (pollStep s) :=
  Kept.inv_exchange_latched hs.of_same hl.of_same fun _ _ ht htl => ht.inv_pollAnswered htl _

theorem Kept.inv_verifyStep (hs : Kept s) (hl : Latched s) (a : Addr) (n : Nat) : Inv (verifyStep a n s) :=
  hs.inv_exchange_latched hl fun _ _ ht htl => by
    split
    · exact ht.inv_setSeq htl (by simp)
    · exact ht.inv_respond _

/-! ### An accepted request -/

/-- An accepted WRITE reaches the sequencer only past the bounds check (R151 to R153). -/
theorem Kept.inv_acceptWrite (hs : Kept s) (hrsp : s.blk.rsp = none) (h : Handle) (a : Addr) (d : Bytes) (v : Bool) :
    Inv (if writeOk s.cfg a d.length then latchStep (Machine.loadPayload d (latchWrite h a d.length v s))
      else raise .boundsError (latchWrite h a d.length v s)) := by
  have hw : Kept (latchWrite h a d.length v s) := hs.of_same
  split
  · next hok =>
    have hd : d.length ≤ 256 := ((writeOk_iff ..).1 hok).2.1
    exact (hw.loadPayload hd).inv_latchStep ⟨hrsp, rfl, hok⟩
  · exact hw.inv_respond _

theorem Kept.inv_acceptedTo (hs : Kept s) (hrsp : s.blk.rsp = none) {i : Instr} (ht : acceptedTo i s = some t) :
    Inv t := by
  cases i <;> simp only [acceptedTo, Option.some.injEq, reduceCtorEq] at ht <;> subst ht
  case hostRead h a n => exact Kept.inv_readStep hs.of_same h a n
  case hostWrite h a d v => exact hs.inv_acceptWrite hrsp h a d v
  case hostRdsr h => exact Kept.inv_rdsrStep hs.of_same h
  case hostWren h => exact Kept.inv_wrenStep hs.of_same h
  case hostWrdi h => exact Kept.inv_wrdiStep hs.of_same h
  case hostPoll h => exact Kept.inv_pollOnce hs.of_same h
  case illegal6 => exact hs.inv_respond _
  case illegal7 => exact hs.inv_respond _

end

/-- Settles O41, by the cases of a step: one that ends in `Idle` needs `Kept`, an arrow of the write sequencer also needs
the latches of the WRITE. -/
theorem stepKeepsInvariant : Obligations.StepKeepsInvariant := by
  intro s t hs hstep
  have hk := hs.kept
  cases step_cases hstep with
  | reset _ ht => subst ht; exact hk.resetBlock.inv_of_idle rfl
  | take r _ hq _ ht => subst ht; exact Kept.inv_of_idle hk.of_same hq
  | wait _ _ _ _ ht => subst ht; exact hs
  | accept r rest i _ _ hrsp _ _ ht => exact Kept.inv_acceptedTo (s := withRequests rest s) hk.of_same hrsp ht
  | data _ hq ht => subst ht; exact hk.inv_dataStep (hs.latched (by simp [hq, SeqState.inWrite])) _ _
  | sent _ hq ht => subst ht; exact hk.inv_enterPolling (hs.latched (by simp [hq, SeqState.inWrite]))
  | poll _ hq ht => subst ht; exact hk.inv_pollStep (hs.latched (by simp [hq, SeqState.inWrite]))
  | verify _ hq ht => subst ht; exact hk.inv_verifyStep (hs.latched (by simp [hq, SeqState.inWrite])) _ _
  | done _ _ ht => subst ht; exact hk.inv_respond _

end Sys2Proof.Machine
end

section
/-! Single-frame operations. Each of them is one call and a response computed from its answer (R111, R130 to R133), so that
what they all share is said once, of `answeredBy`. -/

namespace Sys2Proof.Machine

/-- One `Xfer(h, tx)`, answered to the host with `TransportError` if it failed and with `f rx` otherwise (R181). -/
def answeredBy (h : Handle) (tx : Bytes) (f : Bytes → Response) (s : State) : State :=
  respond (if (s.env.answer tx).ok then f (s.env.answer tx).rx else .failure .transportError) (xfer h tx s)

/-- The response of POLL to the byte of a poll that did not fail (R133). -/
def pollResponse (b : Byte) : Response :=
  match pollVerdict b with
  | .busy => .success (.byte Config.busy)
  | .idle => .success (.byte Config.idle)
  | .illegal => .failure .protocolError

theorem exchange_eq_answeredBy {h : Handle} {tx : Bytes} {k : Bytes → State → State} {s : State} {f : Bytes → Response}
    (hk : ∀ rx t, k rx t = respond (f rx) t) : exchange h tx k s = answeredBy h tx f s := by
  rcases exchange_cases h tx k s with ⟨hok, he⟩ | ⟨hok, he⟩ <;> simp [he, hk, answeredBy, hok]

section
variable (h : Handle) (s : State)

theorem rdsrStep_eq : rdsrStep h s = answeredBy h rdsrFrame (fun rx => .success (.byte (statusByte rx))) s :=
  exchange_eq_answeredBy fun _ _ => rfl

theorem wrenStep_eq : wrenStep h s = answeredBy h wrenFrame (fun _ => .success .nothing) s :=
  exchange_eq_answeredBy fun _ _ => rfl

theorem wrdiStep_eq : wrdiStep h s = answeredBy h wrdiFrame (fun _ => .success .nothing) s :=
  exchange_eq_answeredBy fun _ _ => rfl

theorem pollOnce_eq : pollOnce h s = answeredBy h lpwpFrame (fun rx => pollResponse (statusByte rx)) s :=
  exchange_eq_answeredBy fun rx _ => by
    unfold pollResponse
    cases pollVerdict (statusByte rx) <;> rfl

theorem readStep_eq (a : Addr) (n : Nat) :
    readStep h a n s =
      if readOk s.cfg n then answeredBy h (readFrame a n) (fun rx => .success (.data (readData n rx))) s
      else respond (.failure .boundsError) s := by
  unfold readStep
  split
  · exact exchange_eq_answeredBy fun _ _ => rfl
  · rfl

end

/-! ### The frames sent from `Idle` -/

/-- The next states of a frame sent from `Idle` and of the request for it agree on everything but the latches. -/
structure SameOutcome (t u : State) : Prop where
  env : t.env = u.env
  host : t.host = u.host
  params : t.cfg = u.cfg
  ended : t.blk.seq = .idle
  ended' : u.blk.seq = .idle
  rsp : t.blk.rsp = u.blk.rsp
  rxbuf : t.blk.rxbuf = u.blk.rxbuf

/-- The operation latches are not looked at by an operation that has its handle and its frame (R22). -/
theorem sameOutcome_latchOp (op : HostOp) (h h' : Handle) (tx : Bytes) (f : Bytes → Response) (s : State) :
    SameOutcome (answeredBy h tx f s) (answeredBy h tx f (latchOp op h' s)) :=
  ⟨rfl, rfl, rfl, rfl, rfl, rfl, rfl⟩

theorem sameOutcome_readStep (h : Handle) (a : Addr) (n : Nat) (s : State) :
    SameOutcome (readStep h a n s) (readStep h a n (latchRead h a n s)) := by
  rw [readStep_eq, readStep_eq, latchRead_cfg]
  split <;> exact ⟨rfl, rfl, rfl, rfl, rfl, rfl, rfl⟩

theorem onIdleFrame_accepting {s : State} (hs : s.accepting = true) (f : State → State) :
    onIdleFrame s f = .next (f s) := by
  simp [onIdleFrame, hs]

theorem exec_wireRead_idle {s : State} (hs : s.accepting = true) (a : Addr) (n : Nat) :
    exec (.wireRead a n) s = .next (readStep s.blk.opH a n s) := by
  obtain ⟨hq, -⟩ := (accepting_iff s).1 hs
  simp only [exec, execWireRead, hq, onIdleFrame_accepting hs]

theorem exec_wireLpwp_idle {s : State} (hs : s.accepting = true) :
    exec .wireLpwp s = .next (pollOnce s.blk.opH s) := by
  obtain ⟨hq, -⟩ := (accepting_iff s).1 hs
  simp only [exec, execWireLpwp, hq, onIdleFrame_accepting hs]

/-- Settles O26: the request only latches first, and what it latches the operation does not look at. -/
theorem idleFramesMatchRequests : Obligations.IdleFramesMatchRequests := by
  intro s a n hs i j hij
  suffices hsame : ∃ t u, exec i s = .next t ∧ exec j s = .next u ∧ SameOutcome t u by
    obtain ⟨t, u, ht, hu, h⟩ := hsame
    exact ⟨t, u, ht, hu, h.env, h.host, h.params, h.ended, h.ended', h.rsp, h.rxbuf⟩
  rcases hij with ⟨rfl, rfl⟩ | ⟨rfl, rfl⟩ | ⟨rfl, rfl⟩ | ⟨rfl, rfl⟩ | ⟨rfl, rfl⟩
  · exact ⟨_, _, exec_wireRead_idle hs a n, exec_accepted hs rfl, sameOutcome_readStep _ a n s⟩
  · exact ⟨_, _, onIdleFrame_accepting hs _, exec_accepted hs rfl, by simpa only [rdsrStep_eq] using sameOutcome_latchOp ..⟩
  · exact ⟨_, _, onIdleFrame_accepting hs _, exec_accepted hs rfl, by simpa only [wrenStep_eq] using sameOutcome_latchOp ..⟩
  · exact ⟨_, _, onIdleFrame_accepting hs _, exec_accepted hs rfl, by simpa only [wrdiStep_eq] using sameOutcome_latchOp ..⟩
  · exact ⟨_, _, exec_wireLpwp_idle hs, exec_accepted hs rfl, by simpa only [pollOnce_eq] using sameOutcome_latchOp ..⟩

end Sys2Proof.Machine
end

section
/-! Dead registers (R34). Two states that agree on what is visible (`Alike`) stay so through everything that ends in `Idle`;
inside a WRITE the live latches are carried along (`LiveEq`), and an arrow of the sequencer only makes registers dead that
were live before (`LiveEq.setSeq`). -/

namespace Sys2Proof.Machine

/-- The clauses of `LiveEq` that ask for agreement in every sequencer state. -/
structure Alike (s t : State) : Prop where
  params : s.cfg = t.cfg
  host : s.host = t.host
  env : s.env = t.env
  seq : s.blk.seq = t.blk.seq
  rsp : s.blk.rsp = t.blk.rsp

section
variable {s t : State}

theorem LiveEq.alike (hl : LiveEq s t) : Alike s t := ⟨hl.params, hl.host, hl.env, hl.seq, hl.rsp⟩

theorem Alike.accepting (ha : Alike s t) : s.accepting = t.accepting := by
  simp [State.accepting, ha.seq, ha.rsp]

/-- Outside a WRITE in progress no latch is live. -/
theorem Alike.liveEq (ha : Alike s t) (hq : s.blk.seq.inWrite = false) : LiveEq s t where
  params := ha.params
  host := ha.host
  env := ha.env
  seq := ha.seq
  rsp := ha.rsp
  handle h := by simp [hq] at h
  operands h := by simp [hq] at h
  verify h := by rcases h with h | h | h <;> simp [h, SeqState.inWrite] at hq
  polls h := by simp [h, SeqState.inWrite] at hq

/-! ### What ends in `Idle` -/

theorem Alike.liveEq_respond (ha : Alike s t) (r : Response) : LiveEq (respond r s) (respond r t) :=
  Alike.liveEq ⟨ha.params, ha.host, ha.env, rfl, rfl⟩ rfl

theorem Alike.noteLoopEnd (ha : Alike s t) (x : LoopEnd) : Alike (noteLoopEnd x s) (noteLoopEnd x t) :=
  ⟨ha.params, ha.host, congrArg (Env.endLoop x) ha.env, ha.seq, ha.rsp⟩

theorem Alike.xfer (ha : Alike s t) (h : Handle) (tx : Bytes) : Alike (xfer h tx s) (xfer h tx t) :=
  ⟨ha.params, ha.host, congrArg (Env.after · h tx) ha.env, ha.seq, ha.rsp⟩

theorem Alike.liveEq_resetBlock (ha : Alike s t) : LiveEq (resetBlock s) (resetBlock t) :=
  Alike.liveEq ⟨ha.params, by simp [ha.host], ha.env, rfl, rfl⟩ rfl

theorem Alike.liveEq_takeResponse (ha : Alike s t) (hq : s.blk.seq = .idle) (r : Response) :
    LiveEq (takeResponse r s) (takeResponse r t) :=
  Alike.liveEq ⟨ha.params, by simp [ha.host], ha.env, ha.seq, rfl⟩ (by simp [hq, SeqState.inWrite])

theorem Alike.withRequests (ha : Alike s t) (rs : List Request) : Alike (withRequests rs s) (withRequests rs t) :=
  ⟨ha.params, by simp [ha.host], ha.env, ha.seq, ha.rsp⟩

/-- The same call gets the same answer; if it fails, both operations are over. -/
theorem Alike.liveEq_exchange (ha : Alike s t) (h : Handle) (tx : Bytes) {k k' : Bytes → State → State}
    (hk : ∀ rx, LiveEq (k rx (Machine.xfer h tx s)) (k' rx (Machine.xfer h tx t))) :
    LiveEq (exchange h tx k s) (exchange h tx k' t) := by
  cases hok : (s.env.answer tx).ok with
  | false =>
    rw [exchange_failed hok, exchange_failed (ha.env ▸ hok)]
    exact (ha.xfer h tx).liveEq_respond _
  | true =>
    rw [exchange_ok hok, exchange_ok (ha.env ▸ hok), ← ha.env]
    exact hk _

theorem Alike.liveEq_answeredBy (ha : Alike s t) (h : Handle) (tx : Bytes) (f : Bytes → Response) :
    LiveEq (answeredBy h tx f s) (answeredBy h tx f t) := by
  simp only [answeredBy, ha.env]
  exact (ha.xfer h tx).liveEq_respond _

theorem Alike.liveEq_readStep (ha : Alike s t) (h : Handle) (a : Addr) (n : Nat) :
    LiveEq (readStep h a n s) (readStep h a n t) := by
  rw [readStep_eq, readStep_eq, ha.params]
  split
  · exact ha.liveEq_answeredBy ..
  · exact ha.liveEq_respond _

/-! ### The write sequencer -/

/-- An arrow of the sequencer that makes no register live which was dead. -/
theorem LiveEq.setSeq (hl : LiveEq s t) {q : SeqState} (hw : q.inWrite = true → s.blk.seq.inWrite = true)
    (ho : s.blk.opVerify = true ∨ q = .latchEnabled ∨ q = .verifying →
      s.blk.opVerify = true ∨ s.blk.seq = .latchEnabled ∨ s.blk.seq = .verifying)
    (hv : q = .latchEnabled ∨ q = .dataSent ∨ q = .polling →
      s.blk.seq = .latchEnabled ∨ s.blk.seq = .dataSent ∨ s.blk.seq = .polling)
    (hp : q = .polling → s.blk.seq = .polling) : LiveEq (setSeq q s) (setSeq q t) where
  params := hl.params
  host := hl.host
  env := hl.env
  seq := rfl
  rsp := hl.rsp
  handle h := hl.handle (hw h)
  operands h h' := hl.operands (hw h) (ho h')
  verify h := hl.verify (hv h)
  polls h := hl.polls (hp h)

theorem LiveEq.xfer (hl : LiveEq s t) (h : Handle) (tx : Bytes) : LiveEq (xfer h tx s) (xfer h tx t) :=
  { hl with env := congrArg (Env.after · h tx) hl.env }

theorem LiveEq.noteLoopEnd (hl : LiveEq s t) (x : LoopEnd) : LiveEq (noteLoopEnd x s) (noteLoopEnd x t) :=
  { hl with env := congrArg (Env.endLoop x) hl.env }

/-- The count is live only where it counts (R25). -/
theorem LiveEq.countPoll (hl : LiveEq s t) : LiveEq (countPoll s) (countPoll t) where
  params := hl.params
  host := hl.host
  env := hl.env
  seq := hl.seq
  rsp := hl.rsp
  handle := hl.handle
  operands := hl.operands
  verify := hl.verify
  polls hq hmax := by
    have hcount : s.blk.pollCount = t.blk.pollCount := hl.polls hq hmax
    simp [hl.params, hcount]

/-- Without a bound the count makes no difference to the loop (R156). -/
theorem LiveEq.pollBoundReached (hl : LiveEq s t) (hq : s.blk.seq = .polling) :
    pollBoundReached s.cfg s.blk.pollCount = pollBoundReached t.cfg t.blk.pollCount := by
  rw [← hl.params]
  cases hmax : s.cfg.pollMax with
  | none => simp [Machine.pollBoundReached, hmax]
  | some n => rw [hl.polls hq (by simp [hmax])]

theorem LiveEq.dataStep (hl : LiveEq s t) (hq : s.blk.seq = .latchEnabled) :
    LiveEq (dataStep s.blk.opAddr (livePayload s) s) (dataStep t.blk.opAddr (livePayload t) t) := by
  have hw : s.blk.seq.inWrite = true := by rw [hq]; rfl
  obtain ⟨haddr, -, hpayload⟩ := hl.operands hw (by simp [hq])
  rw [← haddr, ← hpayload, Machine.dataStep, Machine.dataStep, ← hl.handle hw]
  exact hl.alike.liveEq_exchange _ _ fun _ => (hl.xfer ..).setSeq (by simp [hw]) (by simp [hq]) (by simp [hq]) (by simp)

theorem LiveEq.enterPolling (hl : LiveEq s t) (hq : s.blk.seq = .dataSent) :
    LiveEq (enterPolling s) (enterPolling t) where
  params := hl.params
  host := hl.host
  env := hl.env
  seq := rfl
  rsp := hl.rsp
  handle _ := hl.handle (by rw [hq]; rfl)
  operands _ hlive := hl.operands (by rw [hq]; rfl) (by simpa [hq] using hlive)
  verify _ := hl.verify (by simp [hq])
  polls _ hmax := by
    obtain ⟨n, hn⟩ := Option.ne_none_iff_exists'.1 hmax
    have hn : s.cfg.pollMax = some n := hn
    simp [Machine.enterPolling, ← hl.params, hn]

/-- With verification requested the operands were live all along (R34). -/
theorem LiveEq.leavePolling (hl : LiveEq s t) (hq : s.blk.seq = .polling) :
    LiveEq (leavePolling s) (leavePolling t) := by
  rw [Machine.leavePolling, Machine.leavePolling, ← hl.verify (by simp [hq])]
  cases hv : s.blk.opVerify with
  | true => exact (hl.noteLoopEnd _).setSeq (by simp [hq, SeqState.inWrite]) (by simp [hv]) (by simp) (by simp)
  | false => exact (hl.noteLoopEnd _).setSeq (by simp [SeqState.inWrite]) (by simp [hv]) (by simp) (by simp)

theorem LiveEq.pollAnswered (hl : LiveEq s t) (hq : s.blk.seq = .polling) (b : Byte) :
    LiveEq (pollAnswered b s) (pollAnswered b t) := by
  unfold Machine.pollAnswered
  rw [← hl.pollBoundReached hq]
  cases pollVerdict b with
  | idle => exact hl.leavePolling hq
  | busy =>
    cases Machine.pollBoundReached s.cfg s.blk.pollCount with
    | true => exact (hl.alike.noteLoopEnd _).liveEq_respond _
    | false => exact hl.setSeq (by simp [hq]) (by simp [hq]) (by simp [hq]) fun _ => hq
  | illegal => exact (hl.alike.noteLoopEnd _).liveEq_respond _

theorem LiveEq.pollStep (hl : LiveEq s t) (hq : s.blk.seq = .polling) : LiveEq (pollStep s) (pollStep t) := by
  rw [Machine.pollStep, Machine.pollStep, ← hl.handle (by rw [hq]; rfl)]
  exact hl.countPoll.alike.liveEq_exchange _ _ fun _ => (hl.countPoll.xfer ..).pollAnswered hq _

theorem LiveEq.verifyStep (hl : LiveEq s t) (hq : s.blk.seq = .verifying) :
    LiveEq (verifyStep s.blk.opAddr s.blk.opLen s) (verifyStep t.blk.opAddr t.blk.opLen t) := by
  have hw : s.blk.seq.inWrite = true := by rw [hq]; rfl
  obtain ⟨haddr, hlen, hpayload⟩ := hl.operands hw (by simp [hq])
  simp only [livePayload, ← hlen] at hpayload
  rw [← haddr, ← hlen, Machine.verifyStep, Machine.verifyStep, ← hl.handle hw]
  refine hl.alike.liveEq_exchange _ _ fun rx => ?_
  rw [xfer_pbuf, xfer_pbuf, ← hpayload]
  split
  · exact (hl.xfer ..).setSeq (by simp [SeqState.inWrite]) (by simp [hq]) (by simp) (by simp)
  · exact (hl.alike.xfer ..).liveEq_respond _

/-! ### An accepted request -/

/-- The acceptance of a WRITE writes every register that its first arrow makes live (R22, R23). -/
theorem Alike.liveEq_acceptWrite (ha : Alike s t) (h : Handle) (a : Addr) (d : Bytes) (v : Bool) :
    LiveEq (latchStep (loadPayload d (latchWrite h a d.length v s)))
      (latchStep (loadPayload d (latchWrite h a d.length v t))) := by
  have hlatched : Alike (loadPayload d (latchWrite h a d.length v s)) (loadPayload d (latchWrite h a d.length v t)) :=
    ⟨ha.params, ha.host, ha.env, ha.seq, ha.rsp⟩
  refine hlatched.liveEq_exchange h wrenFrame fun _ => ?_
  obtain ⟨hparams, hhost, henv, -, hrsp⟩ := hlatched.xfer h wrenFrame
  exact
    { params := hparams, host := hhost, env := henv, seq := rfl, rsp := hrsp
      handle := fun _ => rfl
      operands := fun _ _ => ⟨rfl, rfl, by simp [livePayload]⟩
      verify := fun _ => rfl
      polls := fun hq => by simp at hq }

theorem Alike.acceptedTo (ha : Alike s t) {i : Instr} {s' : State} (hs : acceptedTo i s = some s') :
    ∃ t', acceptedTo i t = some t' ∧ LiveEq s' t' := by
  have hlatchOp (op : HostOp) (h : Handle) : Alike (latchOp op h s) (latchOp op h t) :=
    ⟨ha.params, ha.host, ha.env, ha.seq, ha.rsp⟩
  cases i with
  | hostRead h a n =>
    cases hs
    have hlatched : Alike (latchRead h a n s) (latchRead h a n t) := ⟨ha.params, ha.host, ha.env, ha.seq, ha.rsp⟩
    exact ⟨_, rfl, hlatched.liveEq_readStep h a n⟩
  | hostWrite h a d v =>
    cases hs
    refine ⟨_, rfl, ?_⟩
    rw [← ha.params]
    split
    · exact ha.liveEq_acceptWrite h a d v
    · have hlatched : Alike (latchWrite h a d.length v s) (latchWrite h a d.length v t) :=
        ⟨ha.params, ha.host, ha.env, ha.seq, ha.rsp⟩
      exact hlatched.liveEq_respond _
  | hostRdsr h =>
    cases hs
    exact ⟨_, rfl, by simpa only [rdsrStep_eq] using (hlatchOp .rdsr h).liveEq_answeredBy ..⟩
  | hostWren h =>
    cases hs
    exact ⟨_, rfl, by simpa only [wrenStep_eq] using (hlatchOp .wren h).liveEq_answeredBy ..⟩
  | hostWrdi h =>
    cases hs
    exact ⟨_, rfl, by simpa only [wrdiStep_eq] using (hlatchOp .wrdi h).liveEq_answeredBy ..⟩
  | hostPoll h =>
    cases hs
    exact ⟨_, rfl, by simpa only [pollOnce_eq] using (hlatchOp .poll h).liveEq_answeredBy ..⟩
  | illegal6 => cases hs; exact ⟨_, rfl, ha.liveEq_respond _⟩
  | illegal7 => cases hs; exact ⟨_, rfl, ha.liveEq_respond _⟩
  | _ => cases hs

end

/-! ### Steps and runs -/

theorem step_reset {s : State} (hr : s.host.resetLine = true) : step s = .next (resetBlock s) := by
  simp [step, activity, hr]

theorem step_wait {s : State} (hr : s.host.resetLine = false) (hs : s.accepting = true) (hreq : s.host.requests = []) :
    step s = .next s := by
  obtain ⟨hq, hrsp⟩ := (accepting_iff s).1 hs
  simp [step, activity, hr, hq, hrsp, fetchRequest, hreq]

/-- One step of two states that agree on what is live. -/
theorem LiveEq.step {s t s' : State} (hl : LiveEq s t) (h : step s = .next s') :
    ∃ t', step t = .next t' ∧ LiveEq s' t' := by
  have ha := hl.alike
  have hacc : s.accepting = true → t.accepting = true := fun hs => ha.accepting ▸ hs
  have hline {b : Bool} : s.host.resetLine = b → t.host.resetLine = b := fun hr => hl.host ▸ hr
  have hseq {q : SeqState} : s.blk.seq = q → t.blk.seq = q := fun hq => hl.seq ▸ hq
  cases step_cases h with
  | reset hr ht => subst ht; exact ⟨_, step_reset (hline hr), ha.liveEq_resetBlock⟩
  | take r hr hq hrsp ht =>
    subst ht
    exact ⟨_, step_take (hline hr) (hseq hq) (hl.rsp ▸ hrsp), ha.liveEq_takeResponse hq r⟩
  | wait hr hq hrsp hreq ht =>
    subst ht
    exact ⟨t, step_wait (hline hr) (hacc (by simp [hq, hrsp])) (hl.host ▸ hreq), hl⟩
  | accept r rest i hr hq hrsp hreq hi ht =>
    obtain ⟨t', ht', hl'⟩ := (ha.withRequests rest).acceptedTo ht
    have hready : t.accepting = true := hacc (by simp [hq, hrsp])
    refine ⟨t', ?_, hl'⟩
    rw [step_request (hline hr) hready (hl.host ▸ hreq) hi]
    exact exec_accepted hready ht'
  | data hr hq ht => subst ht; exact ⟨_, step_data (hline hr) (hseq hq), hl.dataStep hq⟩
  | sent hr hq ht => subst ht; exact ⟨_, step_sent (hline hr) (hseq hq), hl.enterPolling hq⟩
  | poll hr hq ht => subst ht; exact ⟨_, step_poll (hline hr) (hseq hq), hl.pollStep hq⟩
  | verify hr hq ht => subst ht; exact ⟨_, step_verify (hline hr) (hseq hq), hl.verifyStep hq⟩
  | done hr hq ht => subst ht; exact ⟨_, step_done (hline hr) (hseq hq), ha.liveEq_respond _⟩

/-- A run that answers a state began with a step that answers one. -/
theorem runSteps_succ_next {k : Nat} {s u : State} (h : runSteps (k + 1) s = .next u) :
    ∃ s₁, step s = .next s₁ ∧ runSteps k s₁ = .next u := by
  rw [runSteps] at h
  cases hs : step s with
  | next s₁ => rw [hs] at h; exact ⟨s₁, rfl, h⟩
  | fault f => rw [hs] at h; cases h
  | refused r => rw [hs] at h; cases h

/-- Settles O44, by induction on the number of steps. -/
theorem deadRegistersDoNotMatter : Obligations.DeadRegistersDoNotMatter := by
  intro k
  induction k with
  | zero => rintro s t s' hl ⟨⟩; exact ⟨t, rfl, hl⟩
  | succ k ih =>
    intro s t s' hl h
    obtain ⟨s₁, hs, hrun⟩ := runSteps_succ_next h
    obtain ⟨t₁, ht, hl₁⟩ := hl.step hs
    rw [runSteps_next ht]
    exact ih s₁ t₁ s' hl₁ hrun

end Sys2Proof.Machine
end

section
/-! The registers an operation does not write (R22, R23, R25, R27). A call, a response, an arrow of the sequencer and the record
of the end of the poll loop all leave the registers of `RegistersKept` alone, so every operation does, but for the latches its
acceptance writes and the count of the poll step. -/

namespace Sys2Proof.Machine

/-- The parameters, the host's port, the operand latches, the payload and the count of polls of `t` are those of `s`. -/
structure RegistersKept (s t : State) : Prop where
  params : t.cfg = s.cfg
  host : t.host = s.host
  opSel : t.blk.opSel = s.blk.opSel
  opH : t.blk.opH = s.blk.opH
  opAddr : t.blk.opAddr = s.blk.opAddr
  opLen : t.blk.opLen = s.blk.opLen
  opVerify : t.blk.opVerify = s.blk.opVerify
  pbuf : t.blk.pbuf = s.blk.pbuf
  pollCount : t.blk.pollCount = s.blk.pollCount

section
variable {s t : State}

theorem RegistersKept.respond (hk : RegistersKept s t) (r : Response) : RegistersKept s (respond r t) := { hk with }

theorem RegistersKept.setSeq (hk : RegistersKept s t) (q : SeqState) : RegistersKept s (setSeq q t) := { hk with }

theorem RegistersKept.noteLoopEnd (hk : RegistersKept s t) (x : LoopEnd) : RegistersKept s (noteLoopEnd x t) :=
  { hk with }

end

section
variable (s : State) (h : Handle) (tx : Bytes) (a : Addr) (n : Nat) (d : Bytes)

theorem registersKept_xfer : RegistersKept s (xfer h tx s) := ⟨rfl, rfl, rfl, rfl, rfl, rfl, rfl, rfl, rfl⟩

theorem registersKept_exchange {k : Bytes → State → State}
    (hk : ∀ rx t, RegistersKept s t → RegistersKept s (k rx t)) : RegistersKept s (exchange h tx k s) :=
  exchange_induct ((registersKept_xfer s h tx).respond _) fun _ => hk _ _ (registersKept_xfer s h tx)

theorem registersKept_answeredBy (f : Bytes → Response) : RegistersKept s (answeredBy h tx f s) :=
  (registersKept_xfer s h tx).respond _

theorem registersKept_readStep : RegistersKept s (readStep h a n s) := by
  rw [readStep_eq]
  split
  · exact registersKept_answeredBy ..
  · exact ⟨rfl, rfl, rfl, rfl, rfl, rfl, rfl, rfl, rfl⟩

theorem registersKept_rdsrStep : RegistersKept s (rdsrStep h s) := rdsrStep_eq h s ▸ registersKept_answeredBy ..

theorem registersKept_wrenStep : RegistersKept s (wrenStep h s) := wrenStep_eq h s ▸ registersKept_answeredBy ..

theorem registersKept_wrdiStep : RegistersKept s (wrdiStep h s) := wrdiStep_eq h s ▸ registersKept_answeredBy ..

theorem registersKept_pollOnce : RegistersKept s (pollOnce h s) := pollOnce_eq h s ▸ registersKept_answeredBy ..

theorem registersKept_latchStep : RegistersKept s (latchStep s) :=
  registersKept_exchange _ _ _ fun _ _ hk => hk.setSeq _

theorem registersKept_dataStep : RegistersKept s (dataStep a d s) :=
  registersKept_exchange _ _ _ fun _ _ hk => hk.setSeq _

theorem registersKept_verifyStep : RegistersKept s (verifyStep a n s) :=
  registersKept_exchange _ _ _ fun _ _ hk => by
    split
    · exact hk.setSeq _
    · exact hk.respond _

theorem RegistersKept.pollAnswered {s t : State} (hk : RegistersKept s t) (b : Byte) :
    RegistersKept s (pollAnswered b t) := by
  unfold Machine.pollAnswered
  split
  · exact (hk.noteLoopEnd _).setSeq _
  · split
    · exact (hk.noteLoopEnd _).respond _
    · exact hk.setSeq _
  · exact (hk.noteLoopEnd _).respond _

/-- The poll step counts its frame and changes no other of these registers (R156). -/
theorem registersKept_pollStep : RegistersKept (countPoll s) (pollStep s) :=
  registersKept_exchange (countPoll s) _ _ fun _ _ hk => hk.pollAnswered _

/-- What the acceptance of a WRITE writes, and what it leaves alone (R22, R23, R151). -/
theorem acceptWrite_registers (v : Bool) {t : State} (ht : acceptedTo (.hostWrite h a d v) s = some t) :
    RegistersKept (latchWrite h a d.length v s) { t with blk := { t.blk with pbuf := s.blk.pbuf } } ∧
      t.blk.pbuf.drop d.length = s.blk.pbuf.drop d.length := by
  simp only [acceptedTo, Option.some.injEq] at ht
  subst ht
  split
  · have hk := registersKept_latchStep (loadPayload d (latchWrite h a d.length v s))
    exact ⟨{ hk with pbuf := rfl }, by simp [hk.pbuf]⟩
  · exact ⟨⟨rfl, rfl, rfl, rfl, rfl, rfl, rfl, rfl, rfl⟩, rfl⟩

end

/-- A frame changes none of these registers, but that the poll step of the sequencer counts (R25). -/
theorem registersKept_exec_frame {i : Instr} {s t : State} (h : exec i s = .next t) (hn : acceptedTo i s = none) :
    RegistersKept s t ∨ i = .wireLpwp ∧ s.blk.seq = .polling ∧ RegistersKept (countPoll s) t := by
  rcases exec_wire_cases h hn with ⟨-, hi⟩ | ⟨a, d, -, -, rfl⟩ | ⟨rfl, hq, rfl⟩ | ⟨a, n, -, -, rfl⟩
  · left
    rcases hi with ⟨a, n, -, rfl⟩ | ⟨-, rfl⟩ | ⟨-, rfl⟩ | ⟨-, rfl⟩ | ⟨-, rfl⟩
    · exact registersKept_readStep ..
    · exact registersKept_rdsrStep ..
    · exact registersKept_wrenStep ..
    · exact registersKept_wrdiStep ..
    · exact registersKept_pollOnce ..
  · exact .inl (registersKept_dataStep ..)
  · exact .inr ⟨rfl, hq, registersKept_pollStep s⟩
  · exact .inl (registersKept_verifyStep ..)

/-- The state after acceptance of an instruction is its next state. -/
theorem acceptedTo_of_exec {i : Instr} {s t u : State} (hs : s.accepting = true) (h : exec i s = .next t)
    (hu : acceptedTo i s = some u) : acceptedTo i s = some t := by
  rw [exec_accepted hs hu, Host.Outcome.next.injEq] at h
  exact h ▸ hu

/-- Settles O45: the acceptance writes its latches, and everything after it keeps the registers. -/
theorem registersLeftUnchanged : Obligations.RegistersLeftUnchanged := by
  refine ⟨?bare, ?read, ?write, ?frame⟩
  case bare =>
    intro s t h i op hs hi hx
    have hk : RegistersKept (latchOp op h s) t := by
      rcases hi with ⟨rfl, rfl⟩ | ⟨rfl, rfl⟩ | ⟨rfl, rfl⟩ | ⟨rfl, rfl⟩ <;>
        cases acceptedTo_of_exec hs hx rfl
      · exact registersKept_rdsrStep ..
      · exact registersKept_wrenStep ..
      · exact registersKept_wrdiStep ..
      · exact registersKept_pollOnce ..
    exact ⟨hk.params, hk.host, hk.opSel, hk.opH, hk.opAddr, hk.opLen, hk.opVerify, hk.pbuf, hk.pollCount⟩
  case read =>
    intro s t h a n hs hx
    cases acceptedTo_of_exec hs hx rfl
    have hk := registersKept_readStep (latchRead h a n s) h a n
    exact ⟨hk.params, hk.host, hk.opSel, hk.opH, hk.opAddr, hk.opLen, hk.opVerify, hk.pbuf, hk.pollCount⟩
  case write =>
    intro s t h a d v hs hx
    obtain ⟨hk, hpbuf⟩ := acceptWrite_registers s h a d v (acceptedTo_of_exec hs hx rfl)
    exact ⟨hk.params, hk.host, hk.opSel, hk.opH, hk.opAddr, hk.opLen, hk.opVerify, hk.pollCount, hpbuf⟩
  case frame =>
    intro s t i hi hx
    have hn : acceptedTo i s = none := by
      rcases hi with rfl | rfl | rfl | rfl | ⟨a, n, rfl⟩ | ⟨a, d, rfl⟩ <;> rfl
    rcases registersKept_exec_frame hx hn with hk | ⟨rfl, hq, hk⟩
    · exact ⟨hk.params, hk.host, hk.opSel, hk.opH, hk.opAddr, hk.opLen, hk.opVerify, hk.pbuf, fun _ => hk.pollCount⟩
    · exact ⟨hk.params, hk.host, hk.opSel, hk.opH, hk.opAddr, hk.opLen, hk.opVerify, hk.pbuf, fun h => by simp [hq] at h⟩

/-- An accepted request leaves the parameters alone (R27). -/
theorem acceptedTo_cfg {i : Instr} {s t : State} (ht : acceptedTo i s = some t) : t.cfg = s.cfg := by
  cases i with
  | hostRead h a n => cases ht; exact (registersKept_readStep ..).params
  | hostWrite h a d v => exact (acceptWrite_registers s h a d v ht).1.params
  | hostRdsr h => cases ht; exact (registersKept_rdsrStep ..).params
  | hostWren h => cases ht; exact (registersKept_wrenStep ..).params
  | hostWrdi h => cases ht; exact (registersKept_wrdiStep ..).params
  | hostPoll h => cases ht; exact (registersKept_pollOnce ..).params
  | illegal6 => cases ht; rfl
  | illegal7 => cases ht; rfl
  | _ => cases ht

theorem exec_cfg {i : Instr} {s t : State} (h : exec i s = .next t) : t.cfg = s.cfg := by
  rcases exec_cases h with ⟨rfl, -⟩ | ⟨-, ht⟩ | hn
  · rfl
  · exact acceptedTo_cfg ht
  · rcases registersKept_exec_frame h hn with hk | ⟨-, -, hk⟩
    · exact hk.params
    · exact hk.params

theorem step_cfg {s t : State} (h : step s = .next t) : t.cfg = s.cfg := by
  cases step_cases h with
  | accept r rest i _ _ _ _ _ ht => exact acceptedTo_cfg (s := withRequests rest s) ht
  | data _ _ ht => exact ht ▸ (registersKept_dataStep ..).params
  | poll _ _ ht => exact ht ▸ (registersKept_pollStep s).params
  | verify _ _ ht => exact ht ▸ (registersKept_verifyStep ..).params
  | reset _ ht => exact ht ▸ rfl
  | take _ _ _ _ ht => exact ht ▸ rfl
  | wait _ _ _ _ ht => exact ht ▸ rfl
  | sent _ _ ht => exact ht ▸ rfl
  | done _ _ ht => exact ht ▸ rfl

/-- Settles O38, by the cases of a step and of an instruction. -/
theorem parametersAreFixed : Obligations.ParametersAreFixed := ⟨fun _ _ => step_cfg, fun _ _ _ => exec_cfg⟩

end Sys2Proof.Machine
end

section
/-! The device behind the unconstrained transport: what the frames do to it (R29, R30, R58), and the account of a WRITE from its
data frame to the end of the poll loop (R28, R161). -/

namespace Sys2Proof.Machine

/-! ### The latch -/

theorem pollVerdict_idle_iff (b : Byte) : pollVerdict b = .idle ↔ b = 0x00 := by
  unfold pollVerdict
  repeat' split
  all_goals simp_all [Config.idle]

/-- An answer to the poll frame says `IDLE` when it did not fail and its second byte is 0x00 (R85, R86). -/
theorem saysIdle_answer_iff (e : Env) :
    saysIdle (e.answer lpwpFrame) = true ↔
      (e.answer lpwpFrame).ok = true ∧ (e.answer lpwpFrame).rx[1]? = some 0x00 := by
  rw [answer_byte_one e length_lpwpFrame]
  simp [saysIdle, pollVerdict_idle_iff]

/-- A frame whose first byte is no write command is read as none (R81, R83). -/
theorem receive_of_no_write_command {tx : Bytes} (h2 : tx.head? ≠ some 0x02) (h4 : tx.head? ≠ some 0x04)
    (h6 : tx.head? ≠ some 0x06) :
    receive tx = .rdsr ∨ receive tx = .lpwp ∨ (∃ a n, receive tx = .read a n) ∨ receive tx = .ignored := by
  match tx with
  | [] => simp [receive]
  | [op] =>
    have hw : op ≠ Config.opWren := fun h => h6 (by rw [h]; rfl)
    have hd : op ≠ Config.opWrdi := fun h => h4 (by rw [h]; rfl)
    simp [receive, hw, hd]
  | [op, _] =>
    simp only [receive]
    repeat' split
    all_goals simp
  | [_, _, _] => simp [receive]
  | op :: a0 :: a1 :: a2 :: d =>
    have hw : op ≠ Config.opWrite := fun h => h2 (by rw [h]; rfl)
    simp only [receive, hw, false_and, if_false]
    split <;> simp

section
variable {e : Env} (h : Handle) (ht : e.transport = .unconstrained)
include ht

theorem after_wrenFrame_dev_unconstrained :
    (e.after h wrenFrame).dev =
      { e.dev with
        wel := if (e.answer wrenFrame).ok && !e.dev.busy then true else Config.freeLatch e.calls
        latchOpen := e.dev.latchOpen || e.dev.busy } := by
  rw [after_dev_unconstrained _ _ _ ht, Device.afterFrame, receive_wrenFrame]

theorem after_wrdiFrame_dev_unconstrained :
    (e.after h wrdiFrame).dev =
      { e.dev with
        wel := if (e.answer wrdiFrame).ok && !e.dev.busy then false else Config.freeLatch e.calls
        latchOpen := e.dev.latchOpen && !((e.answer wrdiFrame).ok && e.dev.busy) } := by
  rw [after_dev_unconstrained _ _ _ ht, Device.afterFrame, receive_wrdiFrame]

/-- A poll of a busy device that is answered `IDLE` shows the end of its write (R29, R30). -/
theorem after_lpwpFrame_dev_idle (hb : 0 < e.dev.busyLeft) (hi : saysIdle (e.answer lpwpFrame) = true) :
    (e.after h lpwpFrame).dev = e.dev.completeWrite e.setup.devSize e.calls := by
  rw [after_dev_unconstrained _ _ _ ht]
  simp [Device.afterFrame, Device.busy, hb, hi]

theorem after_dataFrame_dev_unconstrained (a : Addr) {d : Bytes} (hd : d ≠ []) :
    (e.after h (dataFrame a d)).dev =
      { mem := storeRun (devicePlace e.setup.devSize) e.dev.mem a.toNat (freeRun e.calls d.length)
        wel := Config.freeLatch e.calls
        busyLeft :=
          if (e.answer (dataFrame a d)).ok && e.dev.wel && !e.dev.busy then Config.freeBusy e.calls + 1
          else Config.freeBusy e.calls
        lastData :=
          if (e.answer (dataFrame a d)).ok then
            some ⟨a.toNat, d, (e.answer (dataFrame a d)).ok && e.dev.wel && !e.dev.busy⟩
          else none
        latchOpen := e.dev.busy } := by
  rw [after_dev_unconstrained _ _ _ ht, Device.afterFrame, receive_dataFrame a d hd]

/-- A frame that is no write command changes nothing in an idle device (R58). -/
theorem after_dev_of_no_write_command {tx : Bytes} (hb : e.dev.busyLeft = 0) (h2 : tx.head? ≠ some 0x02)
    (h4 : tx.head? ≠ some 0x04) (h6 : tx.head? ≠ some 0x06) : (e.after h tx).dev = e.dev := by
  rw [after_dev_unconstrained _ _ _ ht, Device.afterFrame]
  rcases receive_of_no_write_command h2 h4 h6 with hr | hr | ⟨a, n, hr⟩ | hr <;> simp [hr, Device.busy, hb]

end

/-- Settles O51, by the rule of each frame. -/
theorem latchEventsOfTheDevice : Obligations.LatchEventsOfTheDevice := by
  intro e h ht
  refine ⟨?wren, ?wrdi, ?idlePoll, ?data, ?latchOpen, ?others, ?otherPoll⟩
  case wren =>
    intro hb (hok : (e.answer wrenFrame).ok = true)
    change (e.after h wrenFrame).dev.wel = true
    simp [after_wrenFrame_dev_unconstrained h ht, hok, Device.busy, hb]
  case wrdi =>
    intro hb (hok : (e.answer wrdiFrame).ok = true)
    change (e.after h wrdiFrame).dev.wel = false
    simp [after_wrdiFrame_dev_unconstrained h ht, hok, Device.busy, hb]
  case idlePoll =>
    intro hb hok hbyte
    have hdev := after_lpwpFrame_dev_idle h ht hb ((saysIdle_answer_iff e).2 ⟨hok, hbyte⟩)
    change (_ → (e.after h lpwpFrame).dev.wel = false) ∧ (e.after h lpwpFrame).dev.busyLeft = 0
    rw [hdev]
    exact ⟨fun hopen => by simp [Device.completeWrite, hopen], rfl⟩
  case data =>
    intro a d hd hb hwel hok
    simp [after_dataFrame_dev_unconstrained h ht a hd, hok, hwel, Device.busy, hb]
  case latchOpen =>
    intro a d hd hb
    have hbusy : e.dev.busy = true := decide_eq_true hb
    change (e.after h wrenFrame).dev.latchOpen = true ∧ _
    simp [after_wrenFrame_dev_unconstrained h ht, after_dataFrame_dev_unconstrained h ht a hd, hbusy]
  case others =>
    intro tx hb h2 h4 h6
    exact after_dev_of_no_write_command h ht hb h2 h4 h6
  case otherPoll =>
    intro hno
    refine after_lpwpFrame_dev h ht (.inr (Bool.eq_false_iff.2 fun hidle => ?_))
    obtain ⟨hok, hbyte⟩ := (saysIdle_answer_iff e).1 hidle
    rcases hno with hno | hno
    · exact absurd (hno.symm.trans hok) (by simp)
    · exact hno hbyte

/-! ### A run of bytes stored in the device -/

theorem devicePlace_eq_some {size a x : Nat} :
    devicePlace size a = some x ↔ a < size ∧ a < Config.addrSpace ∧ a = x := by
  simp only [devicePlace, Option.ite_none_right_eq_some, Option.some.injEq, and_assoc]

/-- Outside the addressed range a run stores nothing (R59; log 11). -/
theorem memRead_storeRun_device_outside {size a x : Nat} {m : Memory} {p : Bytes} (hm : Memory.wf m = true)
    (hx : x < a ∨ a + p.length ≤ x) : memRead (storeRun (devicePlace size) m a p) x = memRead m x := by
  refine memRead_storeRun_outside (placed_device size) hm a p x fun i hi hplace => ?_
  obtain ⟨-, -, rfl⟩ := devicePlace_eq_some.1 hplace
  omega

/-- Byte `i` of a run stands where the device has its address (R52). -/
theorem memRead_storeRun_device_inside {size a i : Nat} {m : Memory} {p : Bytes} (hm : Memory.wf m = true)
    (hi : i < p.length) (hsize : a + i < size) (hspace : a + i < Config.addrSpace) :
    memRead (storeRun (devicePlace size) m a p) (a + i) = p[i] := by
  refine memRead_storeRun_inside (placed_device size) hm a p i hi (a + i)
    (devicePlace_eq_some.2 ⟨hsize, hspace, rfl⟩) fun j _ hij hplace => ?_
  obtain ⟨-, -, hj⟩ := devicePlace_eq_some.1 hplace
  omega

/-! ### A WRITE from its data frame to the end of the poll loop -/

/-- In `e` the data frame of a WRITE of `d` at `a` is the last one the device saw, and outside its range memory reads as in
`e₀`, where the WRITE began. -/
structure WriteUnderway (e₀ : Env) (a : Addr) (d : Bytes) (e : Env) : Prop where
  transport : e.transport = .unconstrained
  setup : e.setup = e₀.setup
  memory : Memory.wf e.dev.mem = true
  frame : ∃ taken, e.dev.lastData = some ⟨a.toNat, d, taken⟩
  outside : ∀ x, x < a.toNat ∨ a.toNat + d.length ≤ x → memRead e.dev.mem x = memRead e₀.dev.mem x

/-- The write-enable frame and the data frame, both transferred, put a WRITE underway whatever state the device was in. -/
theorem writeUnderway_of_dataFrame {e : Env} (h : Handle) (a : Addr) {d : Bytes} (ht : e.transport = .unconstrained)
    (hm : Memory.wf e.dev.mem = true) (hd : d ≠ []) (hok : ((e.after h wrenFrame).answer (dataFrame a d)).ok = true) :
    WriteUnderway e a d ((e.after h wrenFrame).after h (dataFrame a d)) := by
  have ht₁ : (e.after h wrenFrame).transport = .unconstrained := ht
  have hm₁ := wf_after e h wrenFrame hm
  have hsetup₁ := after_setup_unconstrained e h wrenFrame ht
  have hdev := after_dataFrame_dev_unconstrained h ht₁ a hd
  refine ⟨ht, (after_setup_unconstrained _ h _ ht₁).trans hsetup₁, wf_after _ h _ hm₁, ?_, fun x hx => ?_⟩
  · rw [hdev]
    exact ⟨_, if_pos hok⟩
  · rw [hdev, memRead_storeRun_device_outside hm₁ (by simpa [freeRun] using hx), (after_wrenFrame_mem e h).1]

section
variable {e₀ e e' : Env} {a : Addr} {d : Bytes} (h : Handle)

/-- What a poll shows of the device keeps the account of the WRITE. -/
theorem WriteUnderway.after_lpwpFrame (hw : WriteUnderway e₀ a d e) :
    WriteUnderway e₀ a d (e.after h lpwpFrame) := by
  obtain ⟨ht, hsetup, hm, ⟨taken, hlast⟩, hout⟩ := hw
  have hsetup' := (after_setup_unconstrained e h lpwpFrame ht).trans hsetup
  have hm' := wf_after e h lpwpFrame hm
  by_cases hdone : 0 < e.dev.busyLeft ∧ saysIdle (e.answer lpwpFrame) = true
  · have hdev := after_lpwpFrame_dev_idle h ht hdone.1 hdone.2
    refine ⟨ht, hsetup', hm', ⟨taken, by rw [hdev]; exact hlast⟩, fun x hx => ?_⟩
    rw [hdev, ← hout x hx]
    simp only [Device.completeWrite, hlast]
    cases taken with
    | true => exact memRead_storeRun_device_outside hm hx
    | false => rfl
  · have hdev := after_lpwpFrame_dev h ht (by
      by_contra hno
      push Not at hno
      exact hdone ⟨Nat.pos_of_ne_zero hno.1, by simpa using hno.2⟩)
    exact ⟨ht, hsetup', hm', ⟨taken, hdev ▸ hlast⟩, hdev ▸ hout⟩

/-- A loop that ends on `IDLE` has sent poll frames only. -/
theorem WriteUnderway.pollFunction {c : Config} {fuel k : Nat} (hw : WriteUnderway e₀ a d e)
    (hp : pollFunction c h fuel k e = some (none, e')) : WriteUnderway e₀ a d e' := by
  induction fuel generalizing k e with
  | zero => cases hp
  | succ fuel ih =>
    have hw' := hw.after_lpwpFrame h
    unfold Machine.pollFunction at hp
    dsimp only at hp
    split at hp
    · cases hp
    split at hp
    · cases hp; exact hw'
    split at hp
    · cases hp
    split at hp
    · exact ih hw' hp
    split at hp
    · cases hp
    · exact ih hw' hp

/-- Where a read-back is answered with the payload, the payload is what the device has stored (R53, R158; log 24). -/
theorem storedBytes_eq_payload {v : Bool} (ht : e.transport = .unconstrained)
    (hback : v = true → readData d.length (e.answer (readFrame a d.length)).rx = d) : storedBytes v d e = d := by
  cases v with
  | false => rfl
  | true =>
    have hanswer : e.answer (readFrame a d.length) = freeAnswer e (d.length + Config.hdrBytes) := by
      simp [Env.answer, ht, Config.hdrBytes]
    simp only [storedBytes, ← hanswer, hback rfl, ite_self]

/-- The `IDLE` that ends the poll loop completes the write of the last data frame (R28, R161). -/
theorem WriteUnderway.endLoop_written (hw : WriteUnderway e₀ a d e) (v : Bool) :
    (e.endLoop (.written v)).dev =
      { mem := storeRun (devicePlace e₀.setup.devSize) e.dev.mem a.toNat (storedBytes v d e)
        wel := false
        busyLeft := 0
        lastData := none
        latchOpen := false } := by
  obtain ⟨taken, hlast⟩ := hw.frame
  simp only [Env.endLoop, hw.transport, hlast, hw.setup]

end

/-! ### The function of R163 where it ends in `Success` -/

/-- A verification that succeeds leaves the device alone and has read the payload back (R158). -/
theorem verifyFunction_success {h : Handle} {a : Addr} {p : Bytes} {v : Bool} {e e' : Env} {o : Output}
    (hv : verifyFunction h a p v e = (.success o, e')) :
    e'.dev = e.dev ∧ (v = true → readData p.length (e.answer (readFrame a p.length)).rx = p) := by
  cases v with
  | false => cases hv; exact ⟨rfl, by simp⟩
  | true =>
    simp only [verifyFunction, if_true] at hv
    split at hv
    · cases hv
    split at hv
    · cases hv
    · next hback => cases hv; exact ⟨after_readFrame_dev .., fun _ => not_not.1 hback⟩

/-- The calls and checks a WRITE that ends in `Success` has passed (R163). -/
theorem writeFunction_success {c : Config} {fuel : Nat} {h : Handle} {a : Addr} {p : Bytes} {v : Bool} {e e' : Env}
    {o : Output} (hw : writeFunction c fuel h a p v e = some (.success o, e')) :
    p ≠ [] ∧ ((e.after h wrenFrame).answer (dataFrame a p)).ok = true ∧
      ∃ e₃, pollFunction c h fuel 0 ((e.after h wrenFrame).after h (dataFrame a p)) = some (none, e₃) ∧
        verifyFunction h a p v (e₃.endLoop (.written v)) = (.success o, e') := by
  unfold writeFunction at hw
  dsimp only at hw
  split at hw
  · cases hw
  next hbounds =>
  split at hw
  · cases hw
  split at hw
  · cases hw
  next hok =>
  split at hw
  · cases hw
  · cases hw
  next e₃ hpoll =>
  obtain ⟨hlen, -, -⟩ := (writeOk_iff ..).1 (Bool.eq_true_of_not_eq_false hbounds)
  exact ⟨List.ne_nil_of_length_pos hlen, Bool.eq_true_of_not_eq_false hok, e₃, hpoll, Option.some.inj hw⟩

/-- Settles O53: the data frame puts the WRITE underway, the polls keep it so, and the `IDLE` that ends them stores the
payload. -/
theorem successfulWriteStoresPayload : Obligations.SuccessfulWriteStoresPayload := by
  intro c fuel h a d v e e' ht hm hsuccess
  obtain ⟨hd, hok, e₃, hpoll, hverify⟩ := writeFunction_success hsuccess
  have hw : WriteUnderway e a d e₃ := (writeUnderway_of_dataFrame h a ht hm hd hok).pollFunction h hpoll
  obtain ⟨hdev, hback⟩ := verifyFunction_success hverify
  have hstored : storedBytes v d e₃ = d := storedBytes_eq_payload hw.transport (by simpa using hback)
  rw [hdev, hw.endLoop_written, hstored]
  refine ⟨fun i hi hsize hspace => ?_, fun x hx => ?_, rfl, rfl⟩
  · exact memRead_storeRun_device_inside hw.memory hi hsize hspace
  · exact (memRead_storeRun_device_outside hw.memory hx).trans (hw.outside x hx)

end Sys2Proof.Machine
end

section
/-! Canonical memories (R28, R50; log 23) and the state after reset (R33). -/

namespace Sys2Proof.Machine

/-- A listed cell does not read as an unlisted address does. -/
theorem wfFrom_cons {lo k : Nat} {v : Byte} {t : Memory} (h : Memory.wfFrom lo ((k, v) :: t) = true) :
    v ≠ unwritten ∧ Memory.wfFrom (k + 1) t = true := by
  simp only [Memory.wfFrom, Bool.and_eq_true, decide_eq_true_eq] at h
  exact ⟨h.1.2, h.2⟩

theorem memRead_cons_self (k : Nat) (v : Byte) (t : Memory) : memRead ((k, v) :: t) k = v := if_pos rfl

/-- A canonical memory lists its first cell at the least address that reads as something. -/
theorem head_le_of_memRead_ne {lo k a : Nat} {v : Byte} {t : Memory} (h : Memory.wfFrom lo ((k, v) :: t) = true)
    (ha : memRead ((k, v) :: t) a ≠ unwritten) : k ≤ a := by
  by_contra hlt
  refine ha ?_
  rw [memRead, if_neg (by omega), memRead_below (wfFrom_cons h).2 (by omega)]

/-- Behind equal first cells the tails read alike too: at that address both tails list nothing. -/
theorem tails_read_alike {k : Nat} {v : Byte} {t t' : Memory} (ht : Memory.wfFrom (k + 1) t = true)
    (ht' : Memory.wfFrom (k + 1) t' = true) (h : ∀ a, memRead ((k, v) :: t) a = memRead ((k, v) :: t') a) (a : Nat) :
    memRead t a = memRead t' a := by
  by_cases ha : a = k
  · rw [memRead_below ht (by omega), memRead_below ht' (by omega)]
  · simpa [memRead, ha] using h a

theorem eq_of_read_alike {lo : Nat} {m m' : Memory} (hm : Memory.wfFrom lo m = true) (hm' : Memory.wfFrom lo m' = true)
    (h : ∀ a, memRead m a = memRead m' a) : m = m' := by
  induction m generalizing lo m' with
  | nil =>
    cases m' with
    | nil => rfl
    | cons c t =>
      obtain ⟨k, v⟩ := c
      exact absurd ((h k).trans (memRead_cons_self k v t)).symm (wfFrom_cons hm').1
  | cons c t ih =>
    obtain ⟨k, v⟩ := c
    obtain ⟨hv, ht⟩ := wfFrom_cons hm
    cases m' with
    | nil => exact absurd ((memRead_cons_self k v t).symm.trans (h k)) hv
    | cons c' t' =>
      obtain ⟨k', v'⟩ := c'
      obtain ⟨hv', ht'⟩ := wfFrom_cons hm'
      have hkk : k = k' := by
        apply Nat.le_antisymm
        · exact head_le_of_memRead_ne hm (by rwa [h, memRead_cons_self])
        · exact head_le_of_memRead_ne hm' (by rwa [← h, memRead_cons_self])
      subst hkk
      have hvv : v = v' := by simpa [memRead] using h k
      subst hvv
      rw [ih ht ht' (tails_read_alike ht ht' h)]

/-- Settles O60, by induction on the first list: both lists begin at the least address that reads as something. -/
theorem canonicalMemoriesThatReadAlikeAreEqual : Obligations.CanonicalMemoriesThatReadAlikeAreEqual :=
  fun _ _ hm hm' h => eq_of_read_alike hm hm' h

/-- Settles O40: each register has the value `State.reset` gives it. -/
theorem resetState : Obligations.ResetState :=
  ⟨rfl, rfl, rfl, rfl, rfl, (accepting_iff _).2 ⟨rfl, rfl⟩⟩

theorem kept_reset : Kept State.reset where
  params := by decide
  memory := rfl
  payload := List.length_replicate
  buffers := rfl
  recorded := rfl

/-- Settles O42: in `Idle` the clauses of `Kept` are all there is to the invariant. -/
theorem resetMeetsInvariant : Obligations.ResetMeetsInvariant := kept_reset.inv_of_idle rfl

end Sys2Proof.Machine
end

section
/-! Steps and requests (R66, R150), and the one call a step makes (R61). What an operation other than the poll step of the write
sequencer does at the transport is said once, by `Called`. -/

namespace Sys2Proof.Machine

/-! ### The frame of a sequencer state -/

section
variable {s : State}

theorem exec_wireWrite_latchEnabled (hq : s.blk.seq = .latchEnabled) (a : Addr) (d : Bytes) :
    exec (.wireWrite a d) s = .next (dataStep a d s) := by
  simp only [exec, execWireWrite, hq]

theorem exec_wireLpwp_polling (hq : s.blk.seq = .polling) : exec .wireLpwp s = .next (pollStep s) := by
  simp only [exec, execWireLpwp, hq]

theorem exec_wireRead_verifying (hq : s.blk.seq = .verifying) (a : Addr) (n : Nat) :
    exec (.wireRead a n) s = .next (verifyStep a n s) := by
  simp only [exec, execWireRead, hq]

end

/-- Settles O30: a request by `step_request`, a frame by the sequencer state it is sent from. -/
theorem stepRunsDecodedInstruction : Obligations.StepRunsDecodedInstruction := by
  refine ⟨fun s r rest i hr hs hreq hi => step_request hr hs hreq hi, fun s hr => ⟨fun hq => ?_, fun hq => ?_, fun hq => ?_⟩⟩
  · exact (step_data hr hq).trans (exec_wireWrite_latchEnabled hq _ _).symm
  · exact (step_poll hr hq).trans (exec_wireLpwp_polling hq).symm
  · exact (step_verify hr hq).trans (exec_wireRead_verifying hq _ _).symm

/-- Settles O31, by the cases of a step: only one that accepts takes from the port, and it starts in a block that is ready. -/
theorem requestWaitsUntilIdle : Obligations.RequestWaitsUntilIdle := by
  refine ⟨fun s r i hs hi => ?_, fun s t hs hstep => ?_⟩
  · obtain ⟨t, ht⟩ := decodeRequest_host hi s
    exact exec_not_accepted hs ht
  · cases step_cases hstep with
    | accept r rest i _ hq hrsp _ _ _ => exact absurd ((accepting_iff s).2 ⟨hq, hrsp⟩) (by simp [hs])
    | reset _ ht => subst ht; rfl
    | take r _ _ _ ht => subst ht; rfl
    | wait _ _ _ _ ht => subst ht; rfl
    | sent _ _ ht => subst ht; rfl
    | done _ _ ht => subst ht; rfl
    | data _ _ ht => rw [ht, (registersKept_dataStep ..).host]
    | poll _ _ ht => rw [ht, (registersKept_pollStep s).host, countPoll_host]
    | verify _ _ ht => rw [ht, (registersKept_verifyStep ..).host]

/-! ### One call -/

/-- From `s` to `t` the frame `tx` was sent with handle `h`: the environment is as the call leaves it, and the buffers hold the
frame and its response (R24). -/
structure Called (s t : State) (h : Handle) (tx : Bytes) : Prop where
  env : t.env = s.env.after h tx
  txbuf : t.blk.txbuf = tx
  rxbuf : t.blk.rxbuf = (s.env.answer tx).rx

section
variable {s t : State}

theorem called_answeredBy (h : Handle) (tx : Bytes) (f : Bytes → Response) : Called s (answeredBy h tx f s) h tx :=
  ⟨rfl, rfl, rfl⟩

theorem called_exchange {h : Handle} {tx : Bytes} {k : Bytes → State → State}
    (hk : ∀ rx t, Called s t h tx → Called s (k rx t) h tx) : Called s (exchange h tx k s) h tx :=
  exchange_induct (P := fun t => Called s t h tx) ⟨rfl, rfl, rfl⟩ fun _ => hk _ _ ⟨rfl, rfl, rfl⟩

theorem called_latchStep : Called s (latchStep s) s.blk.opH wrenFrame :=
  called_exchange fun _ _ hc => { hc with }

theorem called_dataStep (a : Addr) (d : Bytes) : Called s (dataStep a d s) s.blk.opH (dataFrame a d) :=
  called_exchange fun _ _ hc => { hc with }

theorem called_verifyStep (a : Addr) (n : Nat) : Called s (verifyStep a n s) s.blk.opH (readFrame a n) :=
  called_exchange fun _ _ hc => by split <;> exact { hc with }

/-- A READ sends its frame, or nothing where its count is out of bounds (R111). -/
theorem called_readStep (h : Handle) (a : Addr) (n : Nat) :
    (readStep h a n s).env = s.env ∨ Called s (readStep h a n s) h (readFrame a n) := by
  rw [readStep_eq]
  split
  · exact .inr (called_answeredBy ..)
  · exact .inl rfl

/-- `Called` looks at the environment of the state before, and at none of its registers. -/
theorem Called.of_same_env {u : State} {h : Handle} {tx : Bytes} (hc : Called s t h tx) (hu : s.env = u.env := by rfl) :
    Called u t h tx := ⟨hu ▸ hc.env, hc.txbuf, hu ▸ hc.rxbuf⟩

/-- An accepted request leaves the environment alone or sends its frame. -/
theorem acceptedTo_called {i : Instr} (ht : acceptedTo i s = some t) :
    t.env = s.env ∨ ∃ h tx, Sends i tx ∧ Called s t h tx := by
  cases i with
  | hostRead h a n =>
    cases ht
    exact (called_readStep (s := latchRead h a n s) h a n).imp_right fun hc => ⟨_, _, .hostRead h a n, hc.of_same_env⟩
  | hostWrite h a d v =>
    simp only [acceptedTo, Option.some.injEq] at ht
    subst ht
    split
    · exact .inr ⟨_, _, .hostWrite h a d v, called_latchStep.of_same_env⟩
    · exact .inl rfl
  | hostRdsr h => cases ht; exact .inr ⟨h, _, .hostRdsr h, rdsrStep_eq h _ ▸ (called_answeredBy ..).of_same_env⟩
  | hostWren h => cases ht; exact .inr ⟨h, _, .hostWren h, wrenStep_eq h _ ▸ (called_answeredBy ..).of_same_env⟩
  | hostWrdi h => cases ht; exact .inr ⟨h, _, .hostWrdi h, wrdiStep_eq h _ ▸ (called_answeredBy ..).of_same_env⟩
  | hostPoll h => cases ht; exact .inr ⟨h, _, .hostPoll h, pollOnce_eq h _ ▸ (called_answeredBy ..).of_same_env⟩
  | illegal6 => cases ht; exact .inl rfl
  | illegal7 => cases ht; exact .inl rfl
  | _ => cases ht

/-- An instruction that is not the poll step of the write sequencer leaves the environment alone or sends its frame. -/
theorem exec_called {i : Instr} (hx : exec i s = .next t) (hp : i ≠ .wireLpwp ∨ s.blk.seq ≠ .polling) :
    t.env = s.env ∨ ∃ h tx, Sends i tx ∧ Called s t h tx := by
  rcases exec_cases hx with ⟨rfl, -⟩ | ⟨-, ht⟩ | hn
  · exact .inl rfl
  · exact acceptedTo_called ht
  rcases exec_wire_cases hx hn with ⟨-, hi⟩ | ⟨a, d, rfl, -, rfl⟩ | ⟨rfl, hq, -⟩ | ⟨a, n, rfl, -, rfl⟩
  · rcases hi with ⟨a, n, rfl, rfl⟩ | ⟨rfl, rfl⟩ | ⟨rfl, rfl⟩ | ⟨rfl, rfl⟩ | ⟨rfl, rfl⟩
    · exact (called_readStep ..).imp_right fun hc => ⟨_, _, .wireRead a n, hc⟩
    · exact .inr ⟨_, _, .wireRdsr, rdsrStep_eq _ s ▸ called_answeredBy ..⟩
    · exact .inr ⟨_, _, .wireWren, wrenStep_eq _ s ▸ called_answeredBy ..⟩
    · exact .inr ⟨_, _, .wireWrdi, wrdiStep_eq _ s ▸ called_answeredBy ..⟩
    · exact .inr ⟨_, _, .wireLpwp, pollOnce_eq _ s ▸ called_answeredBy ..⟩
  · exact .inr ⟨_, _, .wireWrite a d, called_dataStep a d⟩
  · exact absurd hq (by simpa using hp)
  · exact .inr ⟨_, _, .wireRead a n, called_verifyStep a n⟩

/-- The four ways the poll step goes on after an answer (R156). -/
theorem pollAnswered_cases (b : Byte) (u : State) :
    pollAnswered b u = setSeq .polling u ∨ pollAnswered b u = leavePolling u ∨
      pollAnswered b u = raiseInLoop .timeout .stillBusy u ∨ pollAnswered b u = raiseInLoop .protocolError .unknown u := by
  unfold pollAnswered
  repeat' split
  all_goals simp

/-- No way on from an answer touches the buffers. -/
theorem pollAnswered_buffers (b : Byte) (u : State) :
    (pollAnswered b u).blk.txbuf = u.blk.txbuf ∧ (pollAnswered b u).blk.rxbuf = u.blk.rxbuf := by
  rcases pollAnswered_cases b u with h | h | h | h <;> simp [h]

theorem pollStep_failed (hok : (s.env.answer lpwpFrame).ok = false) :
    pollStep s = respond (.failure .transportError) (xfer s.blk.opH lpwpFrame (countPoll s)) := exchange_failed hok

theorem pollStep_ok (hok : (s.env.answer lpwpFrame).ok = true) :
    pollStep s =
      pollAnswered (statusByte (s.env.answer lpwpFrame).rx) (xfer s.blk.opH lpwpFrame (countPoll s)) := exchange_ok hok

theorem pollStep_buffers : (pollStep s).blk.txbuf = lpwpFrame ∧ (pollStep s).blk.rxbuf = (s.env.answer lpwpFrame).rx := by
  cases hok : (s.env.answer lpwpFrame).ok with
  | false => rw [pollStep_failed hok]; exact ⟨rfl, rfl⟩
  | true => rw [pollStep_ok hok]; exact pollAnswered_buffers ..

/-- Where each way on from an answered poll leads, and what it puts on record about the device (R156, R160; log 24). -/
theorem pollStep_ends (hok : (s.env.answer lpwpFrame).ok = true) :
    let e := s.env.after s.blk.opH lpwpFrame
    let t := pollStep s
    (t.blk.seq = .polling ∧ t.env = e) ∨
      ((t.blk.seq = .verifying ∧ s.blk.opVerify = true ∨ t.blk.seq = .done ∧ s.blk.opVerify = false) ∧
        t.env = e.endLoop (.written s.blk.opVerify)) ∨
      (t.blk.seq = .idle ∧ t.blk.rsp = some (.failure .timeout) ∧ t.env = e.endLoop .stillBusy) ∨
      (t.blk.seq = .idle ∧ t.blk.rsp = some (.failure .protocolError) ∧ t.env = e.endLoop .unknown) := by
  dsimp only
  rw [pollStep_ok hok]
  rcases pollAnswered_cases (statusByte (s.env.answer lpwpFrame).rx) (xfer s.blk.opH lpwpFrame (countPoll s)) with
    h | h | h | h <;> rw [h]
  · exact .inl ⟨rfl, rfl⟩
  · refine .inr (.inl ⟨?_, rfl⟩)
    cases hv : s.blk.opVerify <;> simp [hv]
  · exact .inr (.inr (.inl ⟨rfl, rfl, rfl⟩))
  · exact .inr (.inr (.inr ⟨rfl, rfl, rfl⟩))

/-- A step from outside `Polling` leaves the environment alone or makes one call. -/
theorem step_called (hstep : step s = .next t) (hq : s.blk.seq ≠ .polling) :
    t.env = s.env ∨ ∃ h tx, Called s t h tx := by
  cases step_cases hstep with
  | accept r rest i _ _ _ _ _ ht =>
    exact (acceptedTo_called ht).imp_right fun ⟨h, tx, _, hc⟩ => ⟨h, tx, hc.of_same_env⟩
  | data _ _ ht => exact .inr ⟨_, _, ht ▸ called_dataStep ..⟩
  | verify _ _ ht => exact .inr ⟨_, _, ht ▸ called_verifyStep ..⟩
  | poll _ hpoll _ => exact absurd hpoll hq
  | reset _ ht => exact .inl (ht ▸ rfl)
  | take _ _ _ _ ht => exact .inl (ht ▸ rfl)
  | wait _ _ _ _ ht => exact .inl (ht ▸ rfl)
  | sent _ _ ht => exact .inl (ht ▸ rfl)
  | done _ _ ht => exact .inl (ht ▸ rfl)

end

/-- Settles O35: outside `Polling` by `Called`, in `Polling` by where the poll step leads. -/
theorem atMostOneCallPerStep : Obligations.AtMostOneCallPerStep := by
  intro s t hstep
  by_cases hq : s.blk.seq = .polling
  case neg =>
    refine (step_called hstep hq).imp_right fun ⟨h, tx, hc⟩ => ⟨h, tx, ?_⟩
    exact ⟨by rw [hc.env, after_log], by rw [hc.env, after_calls], hc.txbuf, hc.rxbuf, fun _ => hc.env,
      fun hp => absurd hp hq⟩
  case pos =>
    cases hr : s.host.resetLine with
    | true =>
      cases (step_reset hr).symm.trans hstep
      exact .inl rfl
    | false =>
      cases (step_poll hr hq).symm.trans hstep
      obtain ⟨-, -, hcalls, hlog, -⟩ := (pollStep_env s).same
      obtain ⟨htx, hrx⟩ := pollStep_buffers (s := s)
      refine .inr ⟨s.blk.opH, lpwpFrame, hlog, hcalls, htx, hrx, fun hno => ?_, fun _ hok => pollStep_ends hok⟩
      rw [pollStep_failed (hno.resolve_left (not_not.2 hq))]
      rfl

end Sys2Proof.Machine
end

section
/-! The transports (R68 to R78): the contract both meet, and the reference stub frame by frame. -/

namespace Sys2Proof.Machine

/-! ### Both transports -/

/-- Settles O48. -/
theorem responseHasFrameLength : Obligations.ResponseHasFrameLength :=
  fun e h tx => ⟨length_answer e tx, after_calls e h tx, after_log e h tx⟩

/-- The next answer of the stream is given as it is where it has the length of the frame (R69). -/
theorem answer_of_stream {e : Env} {ok : Bool} {rx tx : Bytes} {more : List Answer} (ht : e.transport = .unconstrained)
    (ha : e.answers = ⟨ok, rx⟩ :: more) (hlen : rx.length = tx.length) : e.answer tx = ⟨ok, rx⟩ := by
  simp only [Env.answer, ht, freeAnswer, ha, ← hlen, fitResponse_self]

/-- Settles O49. -/
theorem unconstrainedTransportAnswersAnything : Obligations.UnconstrainedTransportAnswersAnything := by
  intro e h tx rx ok more ht hlen
  exact ⟨answer_of_stream ht rfl hlen, after_answers_unconstrained _ h tx ht⟩

/-! ### What the stub reads from a frame -/

theorem receive_rdsr (x : Byte) : receive [0x05, x] = .rdsr := rfl

theorem receive_lpwp (x : Byte) : receive [0x08, x] = .lpwp := rfl

theorem receive_data (a0 a1 a2 : Byte) {d : Bytes} (hd : d ≠ []) :
    receive (0x02 :: a0 :: a1 :: a2 :: d) = .data (joinAddrNat a0 a1 a2) d := by
  simp [receive, hd, Config.opRead, Config.opWrite]

theorem receive_read (a0 a1 a2 : Byte) (pad : Bytes) :
    receive (0x03 :: a0 :: a1 :: a2 :: pad) = .read (joinAddrNat a0 a1 a2) pad.length := by
  simp [receive, Config.opRead]

/-- A frame of none of the shapes of R72 to R77 is read as none of them (R78). -/
theorem receive_unknown {tx : Bytes} (hwren : tx ≠ [0x06]) (hwrdi : tx ≠ [0x04]) (hrdsr : ∀ x, tx ≠ [0x05, x])
    (hlpwp : ∀ x, tx ≠ [0x08, x]) (hdata : ∀ a0 a1 a2 x d, tx ≠ 0x02 :: a0 :: a1 :: a2 :: x :: d)
    (hread : ∀ a0 a1 a2 d, tx ≠ 0x03 :: a0 :: a1 :: a2 :: d) : receive tx = .ignored := by
  match tx with
  | [] => rfl
  | [op] =>
    have h6 : op ≠ Config.opWren := fun h => hwren (by rw [h]; rfl)
    have h4 : op ≠ Config.opWrdi := fun h => hwrdi (by rw [h]; rfl)
    simp [receive, h6, h4]
  | [op, x] =>
    have h5 : op ≠ Config.opRdsr := fun h => hrdsr x (by rw [h]; rfl)
    have h8 : op ≠ Config.opLpwp := fun h => hlpwp x (by rw [h]; rfl)
    simp [receive, h5, h8]
  | [_, _, _] => rfl
  | op :: a0 :: a1 :: a2 :: d =>
    have h3 : op ≠ Config.opRead := fun h => hread a0 a1 a2 d (by rw [h]; rfl)
    have h2 : ¬(op = Config.opWrite ∧ d ≠ []) := by
      rintro ⟨rfl, hd⟩
      obtain ⟨x, d', rfl⟩ := List.exists_cons_of_ne_nil hd
      exact hdata a0 a1 a2 x d' rfl
    simp only [receive, h3, h2, if_false]

/-! ### A call that fails, and one that does not -/

theorem stubFails_eq_true {e : Env} (h : e.calls + 1 ∈ e.setup.failAt) : stubFails e = true := decide_eq_true h

theorem stubFails_eq_false {e : Env} (h : e.calls + 1 ∉ e.setup.failAt) : stubFails e = false := decide_eq_false h

/-- Settles O55: each field of the environment that looks at the stub looks first whether the call fails. -/
theorem stubFailingCall : Obligations.StubFailingCall := by
  intro e h tx ht hcall
  have hf := stubFails_eq_true hcall
  constructor
  · simp [Env.answer, ht, stubAnswer, hf, rep, Config.poison]
  · simp [Env.after, ht, hf]

@[simp] theorem busy_iff (d : Device) : d.busy = true ↔ 0 < d.busyLeft := decide_eq_true_iff

section
variable {e : Env} (h : Handle) (ht : e.transport = .stub) (hf : stubFails e = false)
include ht hf

theorem after_wrenFrame_dev_stub :
    (e.after h wrenFrame).dev = if 0 < e.dev.busyLeft then e.dev else { e.dev with wel := true } := by
  simp [after_dev_stub e h _ ht hf, stubDevice]

theorem after_wrdiFrame_dev_stub :
    (e.after h wrdiFrame).dev = if 0 < e.dev.busyLeft then e.dev else { e.dev with wel := false } := by
  simp [after_dev_stub e h _ ht hf, stubDevice]

theorem after_setup_stub (tx : Bytes) : (e.after h tx).setup = { e.setup with pollScript := stubScript e tx } := by
  simp [Env.after, ht, hf]

theorem answer_rdsr_stub (x : Byte) :
    e.answer [0x05, x] = ⟨true, [0xA5, if 0 < e.dev.busyLeft then 0xFF else 0x00]⟩ := by
  rw [answer_stub ht hf, stubResponse, receive_rdsr]
  simp only [busy_iff]
  rfl

theorem answer_lpwp_stub (x : Byte) : e.answer [0x08, x] = ⟨true, [0xA5, stubPollByte e]⟩ := by
  rw [answer_stub ht hf, stubResponse, receive_lpwp]
  rfl

theorem after_lpwp_dev_stub (x : Byte) (hscript : e.setup.pollScript = none) :
    (e.after h [0x08, x]).dev = { e.dev with busyLeft := e.dev.busyLeft - 1 } := by
  rw [after_dev_stub e h _ ht hf, stubDevice, receive_lpwp]
  simp only [hscript]

/-- A data frame is stored by an idle stub whose latch is set, and ignored by any other (R76). -/
theorem after_dev_stub_data {tx : Bytes} {a : Nat} {d : Bytes} (hr : receive tx = .data a d) :
    (e.after h tx).dev =
      if e.dev.wel = true ∧ e.dev.busyLeft = 0 then
        { e.dev with
          mem := storeRun stubPlace e.dev.mem a (corruptRun e.setup.corrupt a d)
          wel := false
          busyLeft := e.setup.busyPolls }
      else e.dev := by
  simp [after_dev_stub e h _ ht hf, stubDevice, hr, Device.busy]

end

/-- Settles O56. -/
theorem stubLatchFrames : Obligations.StubLatchFrames := by
  intro e h ht hcall
  have hf := stubFails_eq_false hcall
  exact ⟨answer_stub ht hf wrenFrame, answer_stub ht hf wrdiFrame, after_wrenFrame_dev_stub h ht hf,
    after_wrdiFrame_dev_stub h ht hf⟩

/-- The byte of a poll shows whether the stub is busy, where no script takes its place (R75, R78). -/
theorem stubPollByte_of_no_script {e : Env} (hscript : e.setup.pollScript = none) :
    stubPollByte e = if 0 < e.dev.busyLeft then 0xFF else 0x00 := by
  simp only [stubPollByte, hscript, busy_iff]
  rfl

/-- Settles O57, by the frame, and for LPWP by what is left of the script. -/
theorem stubStatusFrames : Obligations.StubStatusFrames := by
  intro e h x ht hcall
  have hf := stubFails_eq_false hcall
  refine ⟨answer_rdsr_stub ht hf x, ?rdsr, fun hnone => ⟨?busy, after_lpwp_dev_stub h ht hf x hnone⟩,
    fun b more hscript => ⟨?next, ?rest⟩, fun hend => ?exhausted⟩
  case rdsr => rw [after_dev_stub e h _ ht hf, stubDevice, receive_rdsr]
  case busy => rw [answer_lpwp_stub ht hf, stubPollByte_of_no_script hnone]
  case next => rw [answer_lpwp_stub ht hf, stubPollByte, hscript]
  case rest => rw [after_setup_stub h ht hf, stubScript, receive_lpwp, hscript]; rfl
  case exhausted => rw [answer_lpwp_stub ht hf, stubPollByte, hend]; rfl

/-! ### Memory of the stub -/

/-- The places of a run that does not go round the address space are distinct (R76). -/
theorem stubPlace_injective {a i j : Nat} (hi : i < Config.addrSpace) (hj : j < Config.addrSpace)
    (h : stubPlace (a + i) = stubPlace (a + j)) : i = j := by
  simp only [stubPlace, Option.some.injEq, Config.addrSpace] at h hi hj
  omega

theorem memRead_storeRun_stub_inside {m : Memory} {a i : Nat} {p : Bytes} (hm : Memory.wf m = true) (hi : i < p.length)
    (hlen : p.length ≤ Config.addrSpace) :
    memRead (storeRun stubPlace m a p) ((a + i) % Config.addrSpace) = p[i] := by
  refine memRead_storeRun_inside placed_stub hm a p i hi _ rfl fun j hj hij hplace => ?_
  have := stubPlace_injective (a := a) (i := j) (j := i) (by omega) (by omega) hplace
  omega

theorem memRead_storeRun_stub_outside {m : Memory} {a x : Nat} {p : Bytes} (hm : Memory.wf m = true)
    (hx : ∀ i < p.length, (a + i) % Config.addrSpace ≠ x) : memRead (storeRun stubPlace m a p) x = memRead m x :=
  memRead_storeRun_outside placed_stub hm a p x fun i hi hplace => hx i hi (Option.some.inj hplace)

/-- What was stored is what is loaded (R76, R77). -/
theorem stubLoad_storeRun {m : Memory} {p : Bytes} (hm : Memory.wf m = true) (a : Nat) (hlen : p.length ≤ Config.addrSpace) :
    stubLoad (storeRun stubPlace m a p) a p.length = p := by
  refine List.ext_getElem (length_stubLoad ..) fun i _ hi => ?_
  simp only [stubLoad, List.getElem_map, List.getElem_range, memRead_storeRun_stub_inside hm hi hlen]

theorem getElem?_stubLoad {m : Memory} {a n i : Nat} (hi : i < n) :
    (stubLoad m a n)[i]? = some (memRead m ((a + i) % Config.addrSpace)) := by
  simp [stubLoad, hi]

theorem getElem_corruptRun {c : Option (Addr × Byte)} {a i : Nat} {p : Bytes} (hi : i < (corruptRun c a p).length) :
    (corruptRun c a p)[i] =
      match c with
      | none => p[i]'(by simpa using hi)
      | some (c, b) => if (a + i) % Config.addrSpace = c.toNat then b else p[i]'(by simpa using hi) := by
  match c with
  | none => rfl
  | some (c, b) => simp [corruptRun]

/-- Settles O58: by `after_dev_stub_data`, and the reads inside and outside of a run. -/
theorem stubStoresDataFrame : Obligations.StubStoresDataFrame := by
  intro e h a0 a1 a2 d ht hcall hm hd
  dsimp only
  have hf := stubFails_eq_false hcall
  have hr := receive_data a0 a1 a2 (List.ne_nil_of_length_pos hd)
  have hdev := after_dev_stub_data h ht hf hr
  refine ⟨?answer, fun hno => ?ignored, fun hwel hbusy => ?stored⟩
  case answer => rw [answer_stub ht hf, stubResponse, hr]; rfl
  case ignored =>
    rw [hdev, if_neg]
    rintro ⟨hwel, hbusy⟩
    rcases hno with hno | hno
    · simp [hno] at hwel
    · omega
  case stored =>
    rw [hdev, if_pos ⟨hwel, hbusy⟩]
    refine ⟨rfl, rfl, fun hlen i hi => ?_, fun x hx => ?_⟩
    · refine (memRead_storeRun_stub_inside hm (by simpa using hi) ((length_corruptRun ..).trans_le hlen)).trans ?_
      rw [getElem_corruptRun]
      cases e.setup.corrupt <;> rfl
    · exact memRead_storeRun_stub_outside hm fun i hi => hx i ((length_corruptRun ..).symm ▸ hi)

/-- Settles O59: by what a receiver reads from the frame. -/
theorem stubReadsAndIgnores : Obligations.StubReadsAndIgnores := by
  intro e h ht hcall
  have hf := stubFails_eq_false hcall
  refine ⟨fun a0 a1 a2 pad => ?read, fun tx hwren hwrdi hrdsr hlpwp hdata hread => ?ignored⟩
  case read =>
    have hr := receive_read a0 a1 a2 pad
    dsimp only
    rw [answer_stub ht hf, after_dev_stub e h _ ht hf, stubResponse, stubDevice, hr]
    refine ⟨rfl, rfl, rfl, fun i hi => ?_⟩
    dsimp only
    rw [List.getElem?_append_right (by simp [Config.hdrBytes])]
    simp only [length_rep, Config.hdrBytes, Nat.add_sub_cancel_left]
    by_cases hb : 0 < e.dev.busyLeft
    · simp [hb, rep, hi, Config.poison]
    · simp only [busy_iff, hb, if_false, getElem?_stubLoad hi]
      rfl
  case ignored =>
    have hr := receive_unknown hwren hwrdi hrdsr hlpwp hdata hread
    rw [answer_stub ht hf, after_dev_stub e h _ ht hf, stubResponse, stubDevice, hr]
    exact ⟨rfl, rfl⟩

end Sys2Proof.Machine
end

section
/-! The round-trip law (R63): a WRITE and a READ of the same range run on the reference stub, step by step. -/

namespace Sys2Proof.Machine

/-! ### Runs -/

/-- Some number of steps leads from `s` to `t`. -/
def Reaches (s t : State) : Prop := ∃ k, runSteps k s = .next t

theorem Reaches.trans {s t u : State} (hst : Reaches s t) (htu : Reaches t u) : Reaches s u := by
  obtain ⟨j, hj⟩ := hst
  obtain ⟨k, hk⟩ := htu
  exact ⟨j + k, (runSteps_add hj).trans hk⟩

theorem reaches_step {s t : State} (h : step s = .next t) : Reaches s t := ⟨1, runSteps_next h⟩

theorem step_accept {s t : State} {r : Request} {rest : List Request} {i : Instr} (hr : s.host.resetLine = false)
    (hs : s.accepting = true) (hreq : s.host.requests = r :: rest) (hi : decodeRequest r = .ok i)
    (ht : acceptedTo i (withRequests rest s) = some t) : step s = .next t :=
  (step_request hr hs hreq hi).trans (exec_accepted (s := withRequests rest s) hs ht)

theorem acceptedTo_hostWrite {s : State} {h : Handle} {a : Addr} {d : Bytes} {v : Bool}
    (hok : writeOk s.cfg a d.length = true) :
    acceptedTo (.hostWrite h a d v) s = some (latchStep (loadPayload d (latchWrite h a d.length v s))) := by
  simp only [acceptedTo, hok, if_true]

/-- A block that has ended an operation presents the response, and the host takes it (R222). -/
theorem reaches_take {s : State} {r : Response} (hr : s.host.resetLine = false) :
    Reaches (respond r s) (takeResponse r (respond r s)) :=
  reaches_step (step_take (s := respond r s) hr rfl rfl)

/-! ### The stub without failing calls or variants -/

/-- The stub of R70 to R77: no call fails, and neither variant of R78 is on. -/
structure PlainStub (e : Env) : Prop where
  transport : e.transport = .stub
  failAt : e.setup.failAt = []
  pollScript : e.setup.pollScript = none
  corrupt : e.setup.corrupt = none

section
variable {e : Env}

theorem PlainStub.not_fails (hp : PlainStub e) : stubFails e = false := by simp [stubFails, hp.failAt]

theorem PlainStub.after_setup (hp : PlainStub e) (h : Handle) (tx : Bytes) : (e.after h tx).setup = e.setup := by
  have hscript : stubScript e tx = e.setup.pollScript := by
    unfold stubScript
    split <;> simp [hp.pollScript]
  rw [after_setup_stub h hp.transport hp.not_fails, hscript]

theorem PlainStub.after (hp : PlainStub e) (h : Handle) (tx : Bytes) : PlainStub (e.after h tx) where
  transport := hp.transport
  failAt := by rw [hp.after_setup, hp.failAt]
  pollScript := by rw [hp.after_setup, hp.pollScript]
  corrupt := by rw [hp.after_setup, hp.corrupt]

/-- No call fails, so an exchange goes on with the response. -/
theorem PlainStub.exchange {s : State} (hp : PlainStub s.env) (h : Handle) (tx : Bytes) (k : Bytes → State → State) :
    exchange h tx k s = k (stubResponse s.env tx) (xfer h tx s) := by
  have ha := answer_stub hp.transport hp.not_fails tx
  rw [exchange_ok (by rw [ha]), ha]

theorem PlainStub.after_lpwpFrame_dev (hp : PlainStub e) (h : Handle) :
    (e.after h lpwpFrame).dev = { e.dev with busyLeft := e.dev.busyLeft - 1 } :=
  after_lpwp_dev_stub h hp.transport hp.not_fails Config.dummy hp.pollScript

/-- An idle stub sets its latch on the write-enable frame, and changes nothing else (R72). -/
theorem PlainStub.after_wrenFrame_dev (hp : PlainStub e) (h : Handle) (hidle : e.dev.busyLeft = 0) :
    (e.after h wrenFrame).dev = { e.dev with wel := true } := by
  rw [after_wrenFrame_dev_stub h hp.transport hp.not_fails, if_neg (by omega)]

/-- An idle stub whose latch is set stores the payload of the data frame as it is (R76). -/
theorem PlainStub.after_dataFrame_dev (hp : PlainStub e) (h : Handle) (a : Addr) {d : Bytes} (hd : d ≠ [])
    (hwel : e.dev.wel = true) (hidle : e.dev.busyLeft = 0) :
    (e.after h (dataFrame a d)).dev =
      { e.dev with mem := storeRun stubPlace e.dev.mem a.toNat d, wel := false, busyLeft := e.setup.busyPolls } := by
  rw [after_dev_stub_data h hp.transport hp.not_fails (receive_dataFrame a d hd), if_pos ⟨hwel, hidle⟩]
  simp only [hp.corrupt, corruptRun]

/-- The data an idle stub answers a READ frame with (R77). -/
theorem readData_stubResponse {a : Addr} {n : Nat} (hidle : e.dev.busyLeft = 0) :
    readData n (stubResponse e (readFrame a n)) = stubLoad e.dev.mem a.toNat n := by
  have hbusy : e.dev.busy = false := by simp [Device.busy, hidle]
  simp [readData, stubResponse, receive_readFrame, hbusy, rep]

end

/-! ### The WRITE -/

/-- A WRITE of `d` at `a` is in progress on the plain stub, with these parameters and this host. -/
structure WriteOnStub (c : Config) (p : HostPort) (a : Addr) (d : Bytes) (s : State) : Prop where
  params : s.cfg = c
  host : s.host = p
  released : s.host.resetLine = false
  addr : s.blk.opAddr = a
  len : s.blk.opLen = d.length
  payload : s.blk.pbuf.take d.length = d
  stub : PlainStub s.env

section
variable {c : Config} {p : HostPort} {a : Addr} {d : Bytes} {s t : State}

theorem WriteOnStub.of_kept (hw : WriteOnStub c p a d s) (hk : RegistersKept s t) (hp : PlainStub t.env) :
    WriteOnStub c p a d t where
  params := hk.params.trans hw.params
  host := hk.host.trans hw.host
  released := by rw [hk.host, hw.released]
  addr := hk.opAddr.trans hw.addr
  len := hk.opLen.trans hw.len
  payload := by rw [hk.pbuf, hw.payload]
  stub := hp

/-- The write-enable frame of an accepted WRITE (R151, R153). -/
theorem writeOnStub_accept {h : Handle} {v : Bool} {r : Request} {rest : List Request} (hr : s.host.resetLine = false)
    (hs : s.accepting = true) (hp : PlainStub s.env) (hreq : s.host.requests = r :: rest)
    (hi : decodeRequest r = .ok (.hostWrite h a d v)) (hok : writeOk s.cfg a d.length = true) :
    ∃ t, Reaches s t ∧ t.blk.seq = .latchEnabled ∧ WriteOnStub s.cfg { s.host with requests := rest } a d t ∧
      t.env = s.env.after h wrenFrame := by
  have hu : WriteOnStub s.cfg { s.host with requests := rest } a d
      (loadPayload d (latchWrite h a d.length v (withRequests rest s))) :=
    ⟨rfl, rfl, hr, rfl, rfl, by simp, hp⟩
  refine ⟨_, reaches_step (step_accept hr hs hreq hi (acceptedTo_hostWrite hok)), ?_,
    hu.of_kept (registersKept_latchStep _) ?_, latchStep_env _⟩
  · rw [latchStep, hu.stub.exchange, setSeq_seq]
  · rw [latchStep_env]
    exact hp.after _ _

/-- The data frame and the start of the poll loop (R154, R155). -/
theorem WriteOnStub.reaches_polling (hw : WriteOnStub c p a d s) (hq : s.blk.seq = .latchEnabled) :
    ∃ t, Reaches s t ∧ t.blk.seq = .polling ∧ WriteOnStub c p a d t ∧ t.env = s.env.after s.blk.opH (dataFrame a d) ∧
      (c.pollMax ≠ none → t.blk.pollCount = 0) := by
  have hstep : step s = .next (dataStep a d s) := by
    rw [step_data hw.released hq, livePayload, hw.addr, hw.len, hw.payload]
  have henv := dataStep_env s a d
  have hw' : WriteOnStub c p a d (dataStep a d s) :=
    hw.of_kept (registersKept_dataStep ..) (henv ▸ hw.stub.after _ _)
  have hq' : (dataStep a d s).blk.seq = .dataSent := by rw [dataStep, hw.stub.exchange, setSeq_seq]
  refine ⟨enterPolling (dataStep a d s), (reaches_step hstep).trans (reaches_step (step_sent hw'.released hq')), rfl,
    { hw' with }, henv, fun hmax => ?_⟩
  obtain ⟨n, hn⟩ := Option.ne_none_iff_exists'.1 hmax
  simp [enterPolling, hw'.params, hn]

/-- A poll sends its frame and keeps the WRITE in progress, whatever the answer: at the stub, the end of the loop puts nothing on
record. -/
theorem WriteOnStub.pollStep (hw : WriteOnStub c p a d s) :
    (pollStep s).env = s.env.after s.blk.opH lpwpFrame ∧ WriteOnStub c p a d (pollStep s) := by
  have henv : (Machine.pollStep s).env = s.env.after s.blk.opH lpwpFrame := by
    rcases pollStep_env s with h | ⟨x, h⟩
    · exact h
    · exact h.trans (endLoop_stub x _ hw.stub.transport)
  have hw' : WriteOnStub c p a d (countPoll s) := { hw with }
  exact ⟨henv, hw'.of_kept (registersKept_pollStep s) (henv ▸ hw.stub.after _ _)⟩

theorem PlainStub.pollStep_eq (hp : PlainStub s.env) :
    Machine.pollStep s =
      pollAnswered (if 0 < s.env.dev.busyLeft then Config.busy else Config.idle)
        (xfer s.blk.opH lpwpFrame (countPoll s)) := by
  rw [Machine.pollStep, PlainStub.exchange (s := countPoll s) hp]
  congr 1
  exact stubPollByte_of_no_script hp.pollScript

/-- While the stub is busy and the bound allows it, the loop goes on (R156). -/
theorem PlainStub.pollStep_busy (hp : PlainStub s.env) (hbusy : 0 < s.env.dev.busyLeft)
    (hmore : PollAllowed s.cfg (nextPollCount s.cfg s.blk.pollCount)) :
    Machine.pollStep s = setSeq .polling (xfer s.blk.opH lpwpFrame (countPoll s)) := by
  have hbound : pollBoundReached s.cfg (nextPollCount s.cfg s.blk.pollCount) = false := by
    unfold pollBoundReached
    split
    · rfl
    · next n hn => exact decide_eq_false (Nat.not_le.2 (hmore n hn))
  rw [hp.pollStep_eq, if_pos hbusy, pollAnswered, show pollVerdict Config.busy = .busy from rfl]
  simp [hbound]

/-- The first poll of an idle stub ends the loop (R157). -/
theorem PlainStub.pollStep_idle (hp : PlainStub s.env) (hidle : s.env.dev.busyLeft = 0) :
    (Machine.pollStep s).blk.seq = .verifying ∨ (Machine.pollStep s).blk.seq = .done := by
  rw [hp.pollStep_eq, if_neg (by omega), pollAnswered, show pollVerdict Config.idle = .idle from rfl]
  cases hv : s.blk.opVerify <;> simp [hv]

/-- An idle stub has stored `d` at `a`. -/
structure StoredOnStub (a : Addr) (d : Bytes) (e : Env) : Prop where
  idle : e.dev.busyLeft = 0
  content : stubLoad e.dev.mem a.toNat d.length = d

/-- The poll loop ends where the bound is above the number of polls the stub is still busy for, and polls store nothing (R157). -/
theorem WriteOnStub.reaches_loop_end (hw : WriteOnStub c p a d s) (hq : s.blk.seq = .polling)
    (hcontent : stubLoad s.env.dev.mem a.toNat d.length = d)
    (hbound : ∀ n, c.pollMax = some n → s.blk.pollCount + s.env.dev.busyLeft < n) :
    ∃ t, Reaches s t ∧ (t.blk.seq = .verifying ∨ t.blk.seq = .done) ∧ WriteOnStub c p a d t ∧ StoredOnStub a d t.env := by
  induction hb : s.env.dev.busyLeft generalizing s with
  | zero =>
    obtain ⟨henv, hw'⟩ := hw.pollStep
    refine ⟨_, reaches_step (step_poll hw.released hq), hw.stub.pollStep_idle hb, hw', ?_, ?_⟩ <;>
      rw [henv, hw.stub.after_lpwpFrame_dev]
    · simp [hb]
    · exact hcontent
  | succ b ih =>
    obtain ⟨henv, hw'⟩ := hw.pollStep
    have hdev : (Machine.pollStep s).env.dev = { s.env.dev with busyLeft := b } := by
      rw [henv, hw.stub.after_lpwpFrame_dev, hb, Nat.add_sub_cancel]
    have hcount {n : Nat} (hn : c.pollMax = some n) : nextPollCount s.cfg s.blk.pollCount = s.blk.pollCount + 1 := by
      simp only [nextPollCount, hw.params, hn]
    have hgo := hw.stub.pollStep_busy (by omega) fun n hn => by
      have hn' : c.pollMax = some n := hw.params ▸ hn
      have := hbound n hn'
      rw [hcount hn']
      omega
    have hcount' : (Machine.pollStep s).blk.pollCount = nextPollCount s.cfg s.blk.pollCount := by rw [hgo]; rfl
    obtain ⟨t, hreach, ht⟩ := ih hw' (by rw [hgo, setSeq_seq]) (by rw [hdev, hcontent])
      (fun n hn => by have := hbound n hn; rw [hcount', hcount hn, hdev]; dsimp only; omega) (by rw [hdev])
    exact ⟨t, (reaches_step (step_poll hw.released hq)).trans hreach, ht⟩

/-- The read-back shows the payload, so that verification succeeds (R158). -/
theorem WriteOnStub.reaches_done (hw : WriteOnStub c p a d s) (hq : s.blk.seq = .verifying) (hd : StoredOnStub a d s.env) :
    ∃ t, Reaches s t ∧ t.blk.seq = .done ∧ WriteOnStub c p a d t ∧ StoredOnStub a d t.env := by
  have henv := verifyStep_env s a d.length
  have hstep : step s = .next (verifyStep a d.length s) := by rw [step_verify hw.released hq, hw.addr, hw.len]
  have hseq : (verifyStep a d.length s).blk.seq = .done := by
    rw [verifyStep, hw.stub.exchange, if_pos, setSeq_seq]
    rw [readData_stubResponse hd.idle, hd.content]
    exact hw.payload.symm
  refine ⟨_, reaches_step hstep, hseq, hw.of_kept (registersKept_verifyStep ..) (henv ▸ hw.stub.after _ _), ?_, ?_⟩ <;>
    rw [henv, after_readFrame_dev]
  · exact hd.idle
  · exact hd.content

/-- From `Done` the host gets `Success`, and the block is ready again (R159, R222). -/
theorem WriteOnStub.reaches_success (hw : WriteOnStub c p a d s) (hq : s.blk.seq = .done) :
    ∃ t, Reaches s t ∧ t.accepting = true ∧ t.cfg = c ∧
      t.host = { p with received := p.received ++ [.success .nothing] } ∧ t.env = s.env := by
  refine ⟨_, (reaches_step (step_done hw.released hq)).trans (reaches_take hw.released), (accepting_iff _).2 ⟨rfl, rfl⟩,
    hw.params, ?_, rfl⟩
  simp [hw.host]

end

/-- A WRITE on an idle plain stub ends in `Success`, and the stub has stored its payload. -/
theorem write_onStub {s : State} {h : Handle} {a : Addr} {d : Bytes} {v : Bool} {r : Request} {rest : List Request}
    (hr : s.host.resetLine = false) (hs : s.accepting = true) (hp : PlainStub s.env) (hreq : s.host.requests = r :: rest)
    (hi : decodeRequest r = .ok (.hostWrite h a d v)) (hok : writeOk s.cfg a d.length = true)
    (hidle : s.env.dev.busyLeft = 0) (hm : Memory.wf s.env.dev.mem = true)
    (hbound : ∀ n, s.cfg.pollMax = some n → s.env.setup.busyPolls < n) :
    ∃ t, Reaches s t ∧ t.accepting = true ∧ t.cfg = s.cfg ∧
      t.host = { s.host with requests := rest, received := s.host.received ++ [.success .nothing] } ∧
      PlainStub t.env ∧ StoredOnStub a d t.env := by
  obtain ⟨hlen, hmax, -⟩ := (writeOk_iff ..).1 hok
  obtain ⟨s₁, hreach₁, hq₁, hw₁, henv₁⟩ := writeOnStub_accept hr hs hp hreq hi hok
  obtain ⟨s₂, hreach₂, hq₂, hw₂, henv₂, hcount⟩ := hw₁.reaches_polling hq₁
  have hdev₁ : s₁.env.dev = { s.env.dev with wel := true } := by rw [henv₁, hp.after_wrenFrame_dev h hidle]
  have hdev₂ := hw₁.stub.after_dataFrame_dev s₁.blk.opH a (List.ne_nil_of_length_pos hlen) (by rw [hdev₁])
    (by rw [hdev₁]; exact hidle)
  rw [← henv₂] at hdev₂
  have hcontent : stubLoad s₂.env.dev.mem a.toNat d.length = d := by
    rw [hdev₂]
    exact stubLoad_storeRun (by rw [hdev₁]; exact hm) _ (hmax.trans (by decide))
  have hbusy : s₂.env.dev.busyLeft = s.env.setup.busyPolls := by rw [hdev₂, henv₁, hp.after_setup]
  obtain ⟨s₃, hreach₃, hq₃, hw₃, hd₃⟩ := hw₂.reaches_loop_end hq₂ hcontent fun n hn => by
    rw [hcount (by simp [hn]), hbusy, Nat.zero_add]
    exact hbound n hn
  obtain ⟨s₄, hreach₄, hq₄, hw₄, hd₄⟩ :
      ∃ t, Reaches s₃ t ∧ t.blk.seq = .done ∧ WriteOnStub s.cfg { s.host with requests := rest } a d t ∧
        StoredOnStub a d t.env := by
    rcases hq₃ with hq₃ | hq₃
    · exact hw₃.reaches_done hq₃ hd₃
    · exact ⟨s₃, ⟨0, rfl⟩, hq₃, hw₃, hd₃⟩
  obtain ⟨t, hreach, hready, hcfg, hhost, henv⟩ := hw₄.reaches_success hq₄
  exact ⟨t, hreach₁.trans (hreach₂.trans (hreach₃.trans (hreach₄.trans hreach))), hready, hcfg, hhost, henv ▸ hw₄.stub,
    henv ▸ hd₄⟩

/-- An idle plain stub that has stored `d` answers a READ of it with `d` (R77, R111). -/
theorem PlainStub.readStep {s : State} {a : Addr} {d : Bytes} (hp : PlainStub s.env) (h : Handle)
    (hok : readOk s.cfg d.length = true) (hd : StoredOnStub a d s.env) :
    readStep h a d.length s = respond (.success (.data d)) (xfer h (readFrame a d.length) s) := by
  rw [Machine.readStep, if_pos hok, hp.exchange, readData_stubResponse hd.idle, hd.content, succeed_eq]

/-- A READ of that range ends in `Success` with `d`, and the block is ready again. -/
theorem read_onStub {s : State} {h : Handle} {a : Addr} {d : Bytes} {r : Request} {rest : List Request}
    (hr : s.host.resetLine = false) (hs : s.accepting = true) (hp : PlainStub s.env) (hreq : s.host.requests = r :: rest)
    (hi : decodeRequest r = .ok (.hostRead h a d.length)) (hok : readOk s.cfg d.length = true) (hd : StoredOnStub a d s.env) :
    ∃ t, Reaches s t ∧ t.accepting = true ∧ t.host.requests = rest ∧
      t.host.received = s.host.received ++ [.success (.data d)] := by
  have hread := PlainStub.readStep (s := latchRead h a d.length (withRequests rest s)) hp h hok hd
  have hstep := reaches_step (step_accept hr hs hreq hi rfl)
  rw [hread] at hstep
  exact ⟨_, hstep.trans (reaches_take hr), (accepting_iff _).2 ⟨rfl, rfl⟩, rfl, rfl⟩

/-- Settles O54: the WRITE ends in `Success` with the payload stored, and the READ after it is answered from there. -/
theorem roundTripAgainstStub : Obligations.RoundTripAgainstStub := by
  intro s h a d v rest hr hs hc hrow ht hfail hscript hcorrupt hidle hm hbound hreq
  have hok : writeOk s.cfg a d.length = true := (writeOk_iff ..).2 hrow
  have hread : readOk s.cfg d.length = true := by
    obtain ⟨hlen, hmax, -⟩ := hrow
    simp only [Config.wf, Bool.and_eq_true, decide_eq_true_eq] at hc
    exact (readOk_iff ..).2 ⟨hlen, hmax.trans hc.1⟩
  obtain ⟨t₁, hreach₁, hready₁, hcfg₁, hhost₁, hp₁, hd₁⟩ :=
    write_onStub hr hs ⟨ht, hfail, hscript, hcorrupt⟩ hreq (if_pos rfl) hok hidle hm hbound
  obtain ⟨t₂, ⟨k, hk⟩, hready₂, hreq₂, hreceived₂⟩ :=
    read_onStub (by rw [hhost₁, hr]) hready₁ hp₁ (by rw [hhost₁]) rfl (hcfg₁ ▸ hread) hd₁
  obtain ⟨t, ht⟩ := hreach₁.trans ⟨k, hk⟩
  exact ⟨t, _, ht, by simp [hreceived₂, hhost₁], hreq₂, hready₂⟩

end Sys2Proof.Machine
end

section
/-! What instructions store in the device (R28, R58): which store nothing, and where the others do (R52; log 11). -/

namespace Sys2Proof.Machine

/-! ### Frames that store nothing -/

/-- A poll changes nothing in an idle device, behind either transport (R58, R75). -/
theorem after_lpwpFrame_dev_of_not_busy {e : Env} (h : Handle) (hb : e.dev.busyLeft = 0) :
    (e.after h lpwpFrame).dev = e.dev := by
  cases ht : e.transport with
  | unconstrained => exact after_lpwpFrame_dev h ht (.inl hb)
  | stub =>
    cases hf : stubFails e with
    | true => exact after_dev_stub_failed e h _ ht hf
    | false =>
      rw [after_dev_stub e h _ ht hf, stubDevice, receive_lpwpFrame]
      have hsame : { e.dev with busyLeft := e.dev.busyLeft - 1 } = e.dev := by rw [hb, Nat.zero_sub, ← hb]
      cases e.setup.pollScript with
      | none => exact hsame
      | some _ => rfl

/-- RDSR and READ, as requests and as frames, change nothing in the device (R58, R111, R130). -/
theorem exec_read_dev {s t : State} {i : Instr} (hx : exec i s = .next t)
    (hi : (∃ h, i = .hostRdsr h) ∨ (∃ h a n, i = .hostRead h a n) ∨ i = .wireRdsr ∨ (∃ a n, i = .wireRead a n) ∨
      i = .illegal6 ∨ i = .illegal7) : t.env.dev = s.env.dev := by
  have hp : i ≠ .wireLpwp := by rcases hi with ⟨_, rfl⟩ | ⟨_, _, _, rfl⟩ | rfl | ⟨_, _, rfl⟩ | rfl | rfl <;> simp
  rcases exec_called hx (.inl hp) with henv | ⟨h, tx, hsends, hc⟩
  · rw [henv]
  · rw [hc.env]
    rcases hi with ⟨_, rfl⟩ | ⟨_, _, _, rfl⟩ | rfl | ⟨_, _, rfl⟩ | rfl | rfl <;> cases hsends
    · exact after_rdsrFrame_dev ..
    · exact after_readFrame_dev ..
    · exact after_rdsrFrame_dev ..
    · exact after_readFrame_dev ..

/-- Settles O46, by the frame an instruction sends. -/
theorem otherInstructionsStoreNothing : Obligations.OtherInstructionsStoreNothing := by
  intro s t i hx
  refine ⟨fun hdata hpoll hlpwp => ?others, exec_read_dev hx, fun hb hi => ?poll⟩
  case others =>
    suffices hkeeps : t.env.dev.mem = s.env.dev.mem ∧ t.env.dev.busyLeft = s.env.dev.busyLeft from
      ⟨fun x => by rw [hkeeps.1], hkeeps.2⟩
    rcases exec_called hx (.inl hlpwp) with henv | ⟨h, tx, hsends, hc⟩
    · rw [henv]; exact ⟨rfl, rfl⟩
    rw [hc.env]
    cases hsends with
    | hostRead | wireRead => rw [after_readFrame_dev]; exact ⟨rfl, rfl⟩
    | hostRdsr | wireRdsr => rw [after_rdsrFrame_dev]; exact ⟨rfl, rfl⟩
    | hostWrite | hostWren | wireWren => exact after_wrenFrame_mem ..
    | hostWrdi | wireWrdi => exact after_wrdiFrame_mem ..
    | wireWrite a d => exact absurd rfl (hdata a d)
    | hostPoll h => exact absurd rfl (hpoll h)
    | wireLpwp => exact absurd rfl hlpwp
  case poll =>
    have hq : i ≠ .wireLpwp ∨ s.blk.seq ≠ .polling := by
      rcases hi with ⟨h, rfl⟩ | ⟨-, hq⟩
      · exact .inl (by simp)
      · exact .inr (by simp [hq])
    rcases exec_called hx hq with henv | ⟨h, tx, hsends, hc⟩
    · rw [henv]
    rw [hc.env]
    rcases hi with ⟨_, rfl⟩ | ⟨rfl, -⟩ <;> cases hsends <;> exact after_lpwpFrame_dev_of_not_busy _ hb

/-! ### Where the others store -/

section
variable {e : Env} {a x : Nat} {p : Bytes} (hm : Memory.wf e.dev.mem = true) (hx : ¬ StoredTo e a p.length x)
include hm hx

theorem memRead_storeRun_device_of_not_storedTo (ht : e.transport = .unconstrained) :
    memRead (storeRun (devicePlace e.setup.devSize) e.dev.mem a p) x = memRead e.dev.mem x := by
  simp only [StoredTo, ht, not_exists, not_and] at hx
  exact memRead_storeRun_outside (placed_device _) hm a p x hx

theorem memRead_storeRun_stub_of_not_storedTo (ht : e.transport = .stub) :
    memRead (storeRun stubPlace e.dev.mem a p) x = memRead e.dev.mem x := by
  simp only [StoredTo, ht, not_exists, not_and] at hx
  exact memRead_storeRun_outside placed_stub hm a p x hx

end

/-- A frame that a receiver ignores changes nothing in the device (R78). -/
theorem after_dev_of_ignored {e : Env} (h : Handle) {tx : Bytes} (hr : receive tx = .ignored) :
    (e.after h tx).dev = e.dev := by
  simp only [Env.after]
  cases e.transport <;> simp [Device.afterFrame, stubDevice, hr]

theorem receive_dataFrame_nil (a : Addr) : receive (dataFrame a []) = .ignored := by
  simp [dataFrame, encAddr, receive, Config.opWrite, Config.opRead]

/-- A data frame stores in its range only (R52, R76; log 11). -/
theorem memRead_after_dataFrame {e : Env} (h : Handle) {a : Addr} {d : Bytes} {x : Nat} (hm : Memory.wf e.dev.mem = true)
    (hx : ¬ StoredTo e a.toNat d.length x) : memRead (e.after h (dataFrame a d)).dev.mem x = memRead e.dev.mem x := by
  by_cases hd : d = []
  · rw [hd, after_dev_of_ignored h (receive_dataFrame_nil a)]
  cases ht : e.transport with
  | unconstrained =>
    rw [after_dataFrame_dev_unconstrained h ht a hd]
    exact memRead_storeRun_device_of_not_storedTo hm (by simpa [freeRun] using hx) ht
  | stub =>
    cases hf : stubFails e with
    | true => rw [after_dev_stub_failed e h _ ht hf]
    | false =>
      rw [after_dev_stub_data h ht hf (receive_dataFrame a d hd)]
      split
      · exact memRead_storeRun_stub_of_not_storedTo hm (by rwa [length_corruptRun]) ht
      · rfl

/-- A poll keeps the account of the last data frame and memory, or completes the internal write (R30, R75). -/
theorem after_lpwpFrame_dev_cases (e : Env) (h : Handle) :
    (e.after h lpwpFrame).dev.lastData = e.dev.lastData ∧
      ((e.after h lpwpFrame).dev.mem = e.dev.mem ∨
        e.transport = .unconstrained ∧ (e.after h lpwpFrame).dev = e.dev.completeWrite e.setup.devSize e.calls) := by
  cases ht : e.transport with
  | unconstrained =>
    rcases Nat.eq_zero_or_pos e.dev.busyLeft with hb | hb
    · rw [after_lpwpFrame_dev h ht (.inl hb)]
      exact ⟨rfl, .inl rfl⟩
    cases hi : saysIdle (e.answer lpwpFrame) with
    | false =>
      rw [after_lpwpFrame_dev h ht (.inr hi)]
      exact ⟨rfl, .inl rfl⟩
    | true =>
      rw [after_lpwpFrame_dev_idle h ht hb hi]
      exact ⟨rfl, .inr ⟨rfl, rfl⟩⟩
  | stub =>
    cases hf : stubFails e with
    | true =>
      rw [after_dev_stub_failed e h _ ht hf]
      exact ⟨rfl, .inl rfl⟩
    | false =>
      rw [after_dev_stub e h _ ht hf, stubDevice, receive_lpwpFrame]
      cases e.setup.pollScript <;> exact ⟨rfl, .inl rfl⟩

/-- The capacity of the device does not change (R59). -/
theorem after_devSize (e : Env) (h : Handle) (tx : Bytes) : (e.after h tx).setup.devSize = e.setup.devSize := by
  simp only [Env.after]
  cases e.transport with
  | unconstrained => rfl
  | stub => dsimp only; split <;> rfl

theorem storedTo_after (e : Env) (h : Handle) (tx : Bytes) (a len x : Nat) :
    StoredTo (e.after h tx) a len x ↔ StoredTo e a len x := by
  simp only [StoredTo, after_transport, after_devSize]

/-- Canonical memory, and an address outside the range of the last data frame. -/
structure OutsideLastData (e : Env) (x : Nat) : Prop where
  memory : Memory.wf e.dev.mem = true
  outside : ∀ f, e.dev.lastData = some f → ¬ StoredTo e f.addr f.payload.length x

section
variable {e : Env} {x : Nat} (ho : OutsideLastData e x)
include ho

theorem OutsideLastData.completeWrite (ht : e.transport = .unconstrained) (n : Nat) :
    memRead (e.dev.completeWrite e.setup.devSize n).mem x = memRead e.dev.mem x := by
  unfold Device.completeWrite
  cases hlast : e.dev.lastData with
  | none => rfl
  | some f =>
    cases hf : f.taken with
    | false => simp only [hf]
    | true =>
      simp only [hf]
      exact memRead_storeRun_device_of_not_storedTo ho.memory (ho.outside f hlast) ht

/-- What a poll shows of the device stores nothing outside the range of the last data frame (R30). -/
theorem OutsideLastData.memRead_after_lpwpFrame (h : Handle) :
    memRead (e.after h lpwpFrame).dev.mem x = memRead e.dev.mem x := by
  rcases (after_lpwpFrame_dev_cases e h).2 with hmem | ⟨ht, hdev⟩
  · rw [hmem]
  · rw [hdev, ho.completeWrite ht]

theorem OutsideLastData.after_lpwpFrame (h : Handle) : OutsideLastData (e.after h lpwpFrame) x where
  memory := wf_after e h _ ho.memory
  outside f hlast := by
    rw [storedTo_after]
    exact ho.outside f ((after_lpwpFrame_dev_cases e h).1 ▸ hlast)

/-- What the end of the poll loop puts on record stores nothing there either (R160; log 24). -/
theorem OutsideLastData.memRead_endLoop (y : LoopEnd) : memRead (e.endLoop y).dev.mem x = memRead e.dev.mem x := by
  cases ht : e.transport with
  | stub => rw [endLoop_stub y e ht]
  | unconstrained =>
    simp only [Env.endLoop, ht]
    cases y with
    | stillBusy => rfl
    | unknown => rfl
    | written v =>
      cases hlast : e.dev.lastData with
      | none => rfl
      | some f =>
        exact memRead_storeRun_device_of_not_storedTo ho.memory (by simpa using ho.outside f hlast) ht

end

/-- Settles O47: the data frame by its range, a poll by what its answer and the end of its loop store, and the READ frame stores
nothing. -/
theorem storesStayInTheAddressedRange : Obligations.StoresStayInTheAddressedRange := by
  refine ⟨fun s t a d x hm hx hout => ?data, fun s t i x hm hi hx hout => ?poll, fun s t a n x hx => ?read⟩
  case data =>
    rcases exec_called hx (.inl (by simp)) with henv | ⟨h, tx, hsends, hc⟩
    · rw [henv]
    · cases hsends
      rw [hc.env, memRead_after_dataFrame h hm hout]
  case poll =>
    have ho : OutsideLastData s.env x := ⟨hm, hout⟩
    rcases exec_env hx with henv | ⟨h, tx, hsends, hnoted⟩
    · rw [henv]
    · have htx : tx = lpwpFrame := by rcases hi with rfl | ⟨_, rfl⟩ <;> cases hsends <;> rfl
      subst htx
      rcases hnoted with henv | ⟨y, henv⟩
      · rw [henv, ho.memRead_after_lpwpFrame]
      · rw [henv, (ho.after_lpwpFrame h).memRead_endLoop, ho.memRead_after_lpwpFrame]
  case read =>
    rw [exec_read_dev hx (.inr (.inr (.inr (.inl ⟨a, n, rfl⟩))))]

end Sys2Proof.Machine
end

section
/-! Encoding (R80 to R83, R88, R90): the frame decoder on the frames the encoder makes, and the frames that decode. -/

namespace Sys2Proof.Machine

/-! ### Frames of the encoder -/

section
variable (c : Config) (a0 a1 a2 : Byte) (d : Bytes)

theorem decodeFrame_write (hd : 1 ≤ d.length ∧ d.length ≤ 256) :
    decodeFrame c (0x02 :: a0 :: a1 :: a2 :: d) = .ok (.wireWrite (joinAddr a0 a1 a2) d) := if_pos hd

theorem decodeFrame_read (hd : 1 ≤ d.length ∧ d.length ≤ c.maxRead) :
    decodeFrame c (0x03 :: a0 :: a1 :: a2 :: d) = .ok (.wireRead (joinAddr a0 a1 a2) d.length) := if_pos hd

theorem dataFrame_joinAddr : dataFrame (joinAddr a0 a1 a2) d = 0x02 :: a0 :: a1 :: a2 :: d := by
  obtain ⟨h0, h1, h2⟩ := addrByte_joinAddr a0 a1 a2
  simp only [dataFrame, encAddr, h0, h1, h2]
  rfl

theorem readFrame_joinAddr (n : Nat) :
    readFrame (joinAddr a0 a1 a2) n = 0x03 :: a0 :: a1 :: a2 :: List.replicate n 0x00 := by
  obtain ⟨h0, h1, h2⟩ := addrByte_joinAddr a0 a1 a2
  simp only [readFrame, encAddr, h0, h1, h2]
  rfl

theorem decodeFrame_dataFrame (a : Addr) (hd : 1 ≤ d.length ∧ d.length ≤ 256) :
    decodeFrame c (dataFrame a d) = .ok (.wireWrite a d) := by
  have h := decodeFrame_write c (addrByte a 0) (addrByte a 1) (addrByte a 2) d hd
  rwa [joinAddr_addrByte] at h

theorem decodeFrame_readFrame (a : Addr) {n : Nat} (hn : 1 ≤ n ∧ n ≤ c.maxRead) :
    decodeFrame c (readFrame a n) = .ok (.wireRead a n) := by
  have h := decodeFrame_read c (addrByte a 0) (addrByte a 1) (addrByte a 2) (List.replicate n Config.pad) (by simpa using hn)
  rwa [joinAddr_addrByte, List.length_replicate] at h

end

theorem wf_wireWrite_iff (c : Config) (a : Addr) (d : Bytes) :
    (Instr.wireWrite a d).wf c = true ↔ 1 ≤ d.length ∧ d.length ≤ 256 := by
  simp only [Instr.wf, Bool.and_eq_true, decide_eq_true_eq]
  rfl

theorem wf_wireRead_iff (c : Config) (a : Addr) (n : Nat) :
    (Instr.wireRead a n).wf c = true ↔ 1 ≤ n ∧ n ≤ c.maxRead := by
  simp [Instr.wf]

/-- Settles O1, by the form of the encoding: frames of fixed bytes and requests compute, a frame with an address decodes to
the address and the length it was made from. -/
theorem encodeDecodeRoundTrip : Obligations.EncodeDecodeRoundTrip := by
  intro c i hi
  cases i with
  | wireWrite a d => exact decodeFrame_dataFrame c d a ((wf_wireWrite_iff c a d).1 hi)
  | wireRead a n => exact decodeFrame_readFrame c a ((wf_wireRead_iff c a n).1 hi)
  | hostWrite h a d v => exact if_pos rfl
  | wireWrsr => rfl
  | wireWrdi => rfl
  | wireRdsr => rfl
  | wireWren => rfl
  | wireLpwp => rfl
  | hostRead h a n => rfl
  | hostRdsr h => rfl
  | hostWren h => rfl
  | hostWrdi h => rfl
  | hostPoll h => rfl
  | illegal6 => rfl
  | illegal7 => rfl

/-- Settles O2, by what the decoder of frames can answer: only a READ is encoded from less than its frame holds. -/
theorem decodedFramesAreEncodings : Obligations.DecodedFramesAreEncodings := by
  intro c f i h
  rcases decodeFrame_cases h with ⟨rfl, rfl⟩ | ⟨a0, a1, a2, d, rfl, h1, h2, rfl⟩ | ⟨a0, a1, a2, d, rfl, h1, h2, rfl⟩ |
    ⟨rfl, rfl⟩ | ⟨rfl, rfl⟩ | ⟨rfl, rfl⟩ | ⟨rfl, rfl⟩
  case inr.inl =>
    have hg := dataFrame_joinAddr a0 a1 a2 d
    exact ⟨(wf_wireWrite_iff ..).2 ⟨h1, h2⟩, _, congrArg Encoding.frame hg, rfl, rfl, fun _ => rfl⟩
  case inr.inr.inl =>
    have hg := readFrame_joinAddr a0 a1 a2 d.length
    exact ⟨(wf_wireRead_iff ..).2 ⟨h1, h2⟩, _, congrArg Encoding.frame hg, by simp, by simp, fun hno => absurd rfl (hno _ _)⟩
  all_goals exact ⟨rfl, _, rfl, rfl, rfl, fun _ => rfl⟩

/-- Of the instructions sent as frames, only a READ decodes from more frames than its encoding (R90, U15). -/
theorem decodeFrame_ok_iff {c : Config} {f g : Bytes} {i : Instr} (hi : i.wf c = true) (hg : encode i = .frame g)
    (hno : ∀ a n, i ≠ .wireRead a n) : decodeFrame c f = .ok i ↔ f = g := by
  constructor
  · intro h
    obtain ⟨-, g', hg', -, -, hf⟩ := decodedFramesAreEncodings c f i h
    cases hg.symm.trans hg'
    exact (hf hno).symm
  · rintro rfl
    have h := encodeDecodeRoundTrip c i hi
    rwa [hg] at h

/-- Settles O3: a command without operands has one frame, and the frames with an address decode as they are laid out. -/
theorem opcodeMapInFull : Obligations.OpcodeMapInFull := by
  intro c f
  refine ⟨decodeFrame_ok_iff rfl rfl (by simp), decodeFrame_ok_iff rfl rfl (by simp), decodeFrame_ok_iff rfl rfl (by simp),
    decodeFrame_ok_iff rfl rfl (by simp), decodeFrame_ok_iff rfl rfl (by simp), fun a d => ⟨fun h => ?_, ?_⟩,
    fun a n => ⟨fun h => ?_, ?_⟩, fun i h => ?_⟩
  · obtain ⟨a0, a1, a2, rfl, h1, h2, ha⟩ := by simpa using decodeFrame_cases h
    exact ⟨by simp; omega, a0, a1, a2, rfl, (joinAddr_eq_iff ..).1 ha.symm⟩
  · rintro ⟨hlen, a0, a1, a2, rfl, ha⟩
    rw [← (joinAddr_eq_iff a a0 a1 a2).2 ha]
    exact decodeFrame_write c a0 a1 a2 d (by simp at hlen; omega)
  · obtain ⟨a0, a1, a2, d, rfl, h1, h2, ha, rfl⟩ := by simpa using decodeFrame_cases h
    exact ⟨by simp; omega, a0, a1, a2, d, rfl, rfl, (joinAddr_eq_iff ..).1 ha.symm⟩
  · rintro ⟨hlen, a0, a1, a2, d, rfl, rfl, ha⟩
    rw [← (joinAddr_eq_iff a a0 a1 a2).2 ha]
    exact decodeFrame_read c a0 a1 a2 d (by simp at hlen; omega)
  · rcases decodeFrame_cases h with ⟨rfl, -⟩ | ⟨a0, a1, a2, d, rfl, -⟩ | ⟨a0, a1, a2, d, rfl, -⟩ | ⟨rfl, -⟩ | ⟨rfl, -⟩ |
      ⟨rfl, -⟩ | ⟨rfl, -⟩ <;> exact ⟨_, _, rfl, by simp⟩

/-! ### Requests -/

/-- Settles O4, by the selector. -/
theorem requestSelectorTable : Obligations.RequestSelectorTable := by
  rintro ⟨op, h, a, n, v, d⟩
  refine ⟨?_, ?_, ?_, ?_, ?_, ?_, ?_, ?_⟩ <;> rintro rfl
  case refine_2 => exact fun hlen => if_pos hlen
  all_goals rfl

/-- Settles O6: the decoders compute the instructions of these words. -/
theorem writtenWordsDecode : Obligations.WrittenWordsDecode :=
  ⟨by decide, by decide, by decide, by decide, by decide⟩

end Sys2Proof.Machine
end

section
/-! The frames a step sends (R83, R87), and where a step stops (R66, R88). -/

namespace Sys2Proof.Machine

/-! ### Frames of the command set -/

/-- The frame is one of the command set that the block may send (R87, R90). -/
def IsCommand (c : Config) (tx : Bytes) : Prop :=
  ∃ i, decodeFrame c tx = .ok i ∧ i ≠ .wireWrsr ∧ i.wf c = true

section
variable {c : Config}

theorem isCommand_of_encode {i : Instr} {tx : Bytes} (hi : i.wf c = true) (hg : encode i = .frame tx)
    (hno : i ≠ .wireWrsr) : IsCommand c tx := by
  have h := encodeDecodeRoundTrip c i hi
  rw [hg] at h
  exact ⟨i, h, hno, hi⟩

theorem isCommand_wrenFrame : IsCommand c wrenFrame := isCommand_of_encode (i := .wireWren) rfl rfl (by simp)

theorem isCommand_wrdiFrame : IsCommand c wrdiFrame := isCommand_of_encode (i := .wireWrdi) rfl rfl (by simp)

theorem isCommand_rdsrFrame : IsCommand c rdsrFrame := isCommand_of_encode (i := .wireRdsr) rfl rfl (by simp)

theorem isCommand_lpwpFrame : IsCommand c lpwpFrame := isCommand_of_encode (i := .wireLpwp) rfl rfl (by simp)

theorem isCommand_dataFrame (a : Addr) {d : Bytes} (hd : 1 ≤ d.length ∧ d.length ≤ 256) : IsCommand c (dataFrame a d) :=
  isCommand_of_encode (i := .wireWrite a d) ((wf_wireWrite_iff ..).2 hd) rfl (by simp)

theorem isCommand_readFrame (a : Addr) {n : Nat} (hn : 1 ≤ n ∧ n ≤ c.maxRead) : IsCommand c (readFrame a n) :=
  isCommand_of_encode (i := .wireRead a n) ((wf_wireRead_iff ..).2 hn) rfl (by simp)

/-- `MAX_READ` is at least `MAX_WRITE` (R5). -/
theorem maxWrite_le_maxRead (hc : c.wf = true) : 256 ≤ c.maxRead := by
  simp only [Config.wf, Bool.and_eq_true, decide_eq_true_eq] at hc
  exact hc.1

end

section
variable {s t : State}

/-- What the bounds check of a WRITE says of the latches as long as it is in progress (R112). -/
theorem Inv.opLen_bounds (hs : Inv s) (hq : s.blk.seq.inWrite = true) : 1 ≤ s.blk.opLen ∧ s.blk.opLen ≤ 256 := by
  obtain ⟨h1, h256, -⟩ := (writeOk_iff ..).1 (hs.bounds hq)
  exact ⟨h1, h256⟩

theorem Inv.length_livePayload (hs : Inv s) (hq : s.blk.seq.inWrite = true) :
    (livePayload s).length = s.blk.opLen := by
  rw [livePayload, List.length_take, hs.payload, Nat.min_eq_left (hs.opLen_bounds hq).2]

/-- From `s` to `t` nothing was recorded, or one call with a frame of the command set. -/
def SendsCommand (s t : State) : Prop :=
  t.env.log = s.env.log ∨ ∃ h tx, t.env.log = s.env.log ++ [⟨h, tx⟩] ∧ IsCommand s.cfg tx

theorem Called.sendsCommand {h : Handle} {tx : Bytes} (hc : Called s t h tx) (htx : IsCommand s.cfg tx) :
    SendsCommand s t := .inr ⟨h, tx, by rw [hc.env, after_log], htx⟩

/-- The count of a READ is checked before its frame is made (R111). -/
theorem readStep_sendsCommand (h : Handle) (a : Addr) (n : Nat) : SendsCommand s (readStep h a n s) := by
  rw [SendsCommand, readStep_env]
  split
  · next hn => exact .inr ⟨h, _, after_log .., isCommand_readFrame a ((readOk_iff ..).1 hn)⟩
  · exact .inl rfl

theorem acceptedTo_sendsCommand {i : Instr} (ht : acceptedTo i s = some t) : SendsCommand s t := by
  rcases acceptedTo_called ht with henv | ⟨h, tx, hsends, hc⟩
  · exact .inl (by rw [henv])
  · cases hsends with
    | hostRead _ a n => cases ht; exact readStep_sendsCommand (s := latchRead _ a n s) _ a n
    | hostWrite _ _ _ _ => exact hc.sendsCommand isCommand_wrenFrame
    | hostRdsr _ => exact hc.sendsCommand isCommand_rdsrFrame
    | hostWren _ => exact hc.sendsCommand isCommand_wrenFrame
    | hostWrdi _ => exact hc.sendsCommand isCommand_wrdiFrame
    | hostPoll _ => exact hc.sendsCommand isCommand_lpwpFrame
    | _ => cases ht

theorem step_sendsCommand (hs : Inv s) (hstep : step s = .next t) : SendsCommand s t := by
  cases step_cases hstep with
  | accept r rest i _ _ _ _ _ ht => exact acceptedTo_sendsCommand (s := withRequests rest s) ht
  | data _ hq ht =>
    have hw : s.blk.seq.inWrite = true := by rw [hq]; rfl
    have hlen := hs.opLen_bounds hw
    rw [← hs.length_livePayload hw] at hlen
    exact ht ▸ (called_dataStep ..).sendsCommand (isCommand_dataFrame _ hlen)
  | poll _ _ ht =>
    obtain ⟨-, -, -, hlog, -⟩ := (pollStep_env s).same
    exact .inr ⟨s.blk.opH, lpwpFrame, ht ▸ hlog, isCommand_lpwpFrame⟩
  | verify _ hq ht =>
    obtain ⟨h1, h256⟩ := hs.opLen_bounds (by rw [hq]; rfl)
    have hn := h256.trans (maxWrite_le_maxRead hs.params)
    exact ht ▸ (called_verifyStep ..).sendsCommand (isCommand_readFrame _ ⟨h1, hn⟩)
  | reset _ ht => exact .inl (ht ▸ rfl)
  | take _ _ _ _ ht => exact .inl (ht ▸ rfl)
  | wait _ _ _ _ ht => exact .inl (ht ▸ rfl)
  | sent _ _ ht => exact .inl (ht ▸ rfl)
  | done _ _ ht => exact .inl (ht ▸ rfl)

end

/-- Settles O36: the invariant bounds the length of the data frame and of the read-back, an acceptance checks the count of a
READ, and the other frames have no operands. -/
theorem sentFramesAreCommands : Obligations.SentFramesAreCommands := by
  intro s t hs hstep
  rcases step_sendsCommand hs hstep with hlog | ⟨h, tx, hlog, htx⟩
  · exact ⟨[], by simpa using hlog, by simp⟩
  · refine ⟨_, hlog, fun c hc => ?_⟩
    cases List.mem_singleton.1 hc
    exact htx

/-! ### Where a step stops -/

/-- The only record that is no request is a WRITE with another payload than it says (R88). -/
theorem decodeRequest_error_iff (r : Request) :
    (∃ e, decodeRequest r = .error e) ↔ r.op = 1 ∧ r.data.length ≠ r.len := by
  obtain ⟨op, h, a, n, v, d⟩ := r
  constructor
  · rintro ⟨e, he⟩
    unfold decodeRequest at he
    split at he
    case h_2 hop =>
      split at he
      · cases he
      · next hlen => exact ⟨BitVec.eq_of_toNat_eq hop, hlen⟩
    all_goals cases he
  · rintro ⟨rfl, hlen⟩
    exact ⟨.payloadLength, if_neg hlen⟩

section
variable {s : State}

theorem step_malformed {r : Request} {rest : List Request} (hr : s.host.resetLine = false) (hs : s.accepting = true)
    (hreq : s.host.requests = r :: rest) (hbad : r.op = 1 ∧ r.data.length ≠ r.len) :
    step s = .fault .malformedRequest := by
  obtain ⟨hq, hrsp⟩ := (accepting_iff s).1 hs
  obtain ⟨e, he⟩ := (decodeRequest_error_iff r).2 hbad
  simp [step, activity, hr, hq, hrsp, fetchRequest, hreq, he]

/-- A block that is ready does nothing, carries out the request on the port, or finds no request there. -/
theorem step_accepting (hr : s.host.resetLine = false) (hs : s.accepting = true) :
    (∃ t, step s = .next t) ∨ ∃ r rest, s.host.requests = r :: rest ∧ r.op = 1 ∧ r.data.length ≠ r.len := by
  cases hreq : s.host.requests with
  | nil => exact .inl ⟨s, step_wait hr hs hreq⟩
  | cons r rest =>
    cases hi : decodeRequest r with
    | error e => exact .inr ⟨r, rest, rfl, (decodeRequest_error_iff r).1 ⟨e, hi⟩⟩
    | ok i =>
      obtain ⟨t, ht⟩ := decodeRequest_host hi (withRequests rest s)
      exact .inl ⟨t, (step_request hr hs hreq hi).trans (exec_accepted hs ht)⟩

/-- A step answers a next state, or the record on the port of a block that is ready is no request. -/
theorem step_next_or_malformed (s : State) : (∃ t, step s = .next t) ∨
    s.host.resetLine = false ∧ s.accepting = true ∧
      ∃ r rest, s.host.requests = r :: rest ∧ r.op = 1 ∧ r.data.length ≠ r.len := by
  cases hr : s.host.resetLine with
  | true => exact .inl ⟨_, step_reset hr⟩
  | false =>
    cases hq : s.blk.seq with
    | idle =>
      cases hrsp : s.blk.rsp with
      | some r => exact .inl ⟨_, step_take hr hq hrsp⟩
      | none =>
        have hs : s.accepting = true := (accepting_iff s).2 ⟨hq, hrsp⟩
        exact (step_accepting hr hs).imp_right fun hbad => ⟨rfl, hs, hbad⟩
    | latchEnabled => exact .inl ⟨_, step_data hr hq⟩
    | dataSent => exact .inl ⟨_, step_sent hr hq⟩
    | polling => exact .inl ⟨_, step_poll hr hq⟩
    | verifying => exact .inl ⟨_, step_verify hr hq⟩
    | done => exact .inl ⟨_, step_done hr hq⟩

end

/-- Settles O43: a step either answers a next state or meets a malformed record, and on such a record it faults. -/
theorem stepsStopOnlyOnMalformedRequest : Obligations.StepsStopOnlyOnMalformedRequest := by
  intro s
  have hfault : (s.host.resetLine = false ∧ s.accepting = true ∧
      ∃ r rest, s.host.requests = r :: rest ∧ r.op = 1 ∧ r.data.length ≠ r.len) → step s = .fault .malformedRequest :=
    fun ⟨hr, hs, _, _, hreq, hbad⟩ => step_malformed hr hs hreq hbad
  rcases step_next_or_malformed s with ⟨t, ht⟩ | hbad
  · exact ⟨by simp [ht], by simp [ht], fun hbad => hfault hbad⟩
  · exact ⟨by simp [hfault hbad], fun _ => hbad, hfault⟩

end Sys2Proof.Machine
end

section
/-! Response bytes the block discards (R69, R85). Two answers that agree where the command looks leave the same state but for
the response buffer (`withRxbuf`), and no way on from the call looks at that buffer. -/

namespace Sys2Proof.Machine

/-! ### The bytes a command uses -/

section
variable {n len : Nat} {r1 r2 : Bytes}

theorem getElem?_fitResponse {i : Nat} (h : r1[i]? = r2[i]?) :
    (fitResponse n len r1)[i]? = (fitResponse n len r2)[i]? := by
  by_cases hi : i < len <;> simp [fitResponse, hi, h]

theorem statusByte_fitResponse (h : r1[1]? = r2[1]?) :
    statusByte (fitResponse n len r1) = statusByte (fitResponse n len r2) := by
  simp only [statusByte, List.getD_eq_getElem?_getD, getElem?_fitResponse h]

theorem readData_fitResponse {m : Nat} (h : ∀ j < m, r1[4 + j]? = r2[4 + j]?) :
    readData m (fitResponse n len r1) = readData m (fitResponse n len r2) := by
  apply List.ext_getElem?
  intro j
  by_cases hj : j < m
  · simp [readData, Config.hdrBytes, hj, getElem?_fitResponse (h j hj)]
  · simp [readData, Config.hdrBytes, hj]

end

/-! ### The state but for the response buffer -/

/-- The state with these bytes in the response buffer (R24). -/
def withRxbuf (rx : Bytes) (s : State) : State := { s with blk := { s.blk with rxbuf := rx } }

/-- The state whose transport will give this answer next, and then these (R163). -/
def answering (a : Answer) (more : List Answer) (s : State) : State :=
  { s with env := { s.env with answers := a :: more } }

section
variable (rx : Bytes) (a : Answer) (more : List Answer) (s : State)

@[simp] theorem withRxbuf_cfg : (withRxbuf rx s).cfg = s.cfg := rfl
@[simp] theorem withRxbuf_pbuf : (withRxbuf rx s).blk.pbuf = s.blk.pbuf := rfl
@[simp] theorem withRxbuf_pollCount : (withRxbuf rx s).blk.pollCount = s.blk.pollCount := rfl
@[simp] theorem answering_cfg : (answering a more s).cfg = s.cfg := rfl
@[simp] theorem answering_seq : (answering a more s).blk.seq = s.blk.seq := rfl
@[simp] theorem answering_accepting : (answering a more s).accepting = s.accepting := rfl

end

/-- What two states share that differ in the bytes of a response only. -/
structure SameButResponse (t u : State) : Prop where
  blk : t.blk = { u.blk with rxbuf := t.blk.rxbuf }
  host : t.host = u.host
  params : t.cfg = u.cfg
  dev : t.env.dev = u.env.dev
  log : t.env.log = u.env.log
  calls : t.env.calls = u.env.calls

/-- The operation ends alike with either response to its call. -/
def EndsAlike (ok : Bool) (r1 r2 : Bytes) (more : List Answer) (s : State) (f : State → State) : Prop :=
  SameButResponse (f (answering ⟨ok, r1⟩ more s)) (f (answering ⟨ok, r2⟩ more s))

theorem sameButResponse_withRxbuf (rx : Bytes) (t : State) : SameButResponse (withRxbuf rx t) t :=
  ⟨rfl, rfl, rfl, rfl, rfl, rfl⟩

/-- The poll step does not look at the response buffer when it goes on. -/
theorem pollAnswered_withRxbuf (b : Byte) (rx : Bytes) (t : State) :
    pollAnswered b (withRxbuf rx t) = withRxbuf rx (pollAnswered b t) := by
  unfold pollAnswered
  cases pollVerdict b with
  | idle => rfl
  | illegal => rfl
  | busy =>
    simp only [withRxbuf_cfg, withRxbuf_pollCount]
    cases pollBoundReached t.cfg t.blk.pollCount <;> rfl

/-! ### One call with either answer -/

section
variable {more : List Answer} {ok : Bool} {r1 r2 : Bytes} {i : Instr} {s : State}

theorem answer_answering (ht : s.env.transport = .unconstrained) (a : Answer) (tx : Bytes) :
    (answering a more s).env.answer tx = ⟨a.ok, fitResponse s.env.calls tx.length a.rx⟩ := by
  simp only [Env.answer, answering, ht, freeAnswer]

/-- The device looks at `ok`, and of the bytes only at that of a poll that did not fail (R30). -/
theorem afterFrame_congr {size n : Nat} {tx rx1 rx2 : Bytes} {d : Device}
    (hpoll : receive tx = .lpwp → ok = true → statusByte rx1 = statusByte rx2) :
    d.afterFrame size n tx ⟨ok, rx1⟩ = d.afterFrame size n tx ⟨ok, rx2⟩ := by
  unfold Device.afterFrame
  cases hr : receive tx with
  | lpwp =>
    have hidle : saysIdle ⟨ok, rx1⟩ = saysIdle ⟨ok, rx2⟩ := by
      cases ok with
      | false => rfl
      | true => simp only [saysIdle, hpoll hr rfl]
    simp only [hidle]
  | _ => rfl

variable (ht : s.env.transport = .unconstrained)
include ht

/-- The call leaves the same state with either answer, but for the response buffer. -/
theorem xfer_answering {h : Handle} {tx : Bytes} (hpoll : receive tx = .lpwp → ok = true → r1[1]? = r2[1]?) :
    xfer h tx (answering ⟨ok, r1⟩ more s) =
      withRxbuf (fitResponse s.env.calls tx.length r1) (xfer h tx (answering ⟨ok, r2⟩ more s)) := by
  have henv : (answering ⟨ok, r1⟩ more s).env.after h tx = (answering ⟨ok, r2⟩ more s).env.after h tx := by
    have hdev := afterFrame_congr (ok := ok) (size := s.env.setup.devSize) (n := s.env.calls) (tx := tx) (d := s.env.dev)
      fun hr hok => statusByte_fitResponse (n := s.env.calls) (len := tx.length) (hpoll hr hok)
    simp only [Env.after, answer_answering ht]
    simp only [answering, ht, List.tail_cons, hdev]
  simp only [xfer, henv, answer_answering ht]
  rfl

/-- An exchange ends alike with either answer, if its continuation uses none of the bytes in which they differ. -/
theorem exchange_sameButResponse {h : Handle} {tx : Bytes} {k : Bytes → State → State}
    (hpoll : receive tx = .lpwp → ok = true → r1[1]? = r2[1]?)
    (hk : ok = true → ∀ rx t, k (fitResponse s.env.calls tx.length r1) (withRxbuf rx t) =
      withRxbuf rx (k (fitResponse s.env.calls tx.length r2) t)) :
    SameButResponse (exchange h tx k (answering ⟨ok, r1⟩ more s)) (exchange h tx k (answering ⟨ok, r2⟩ more s)) := by
  simp only [exchange, answer_answering ht, xfer_answering ht hpoll]
  cases ok with
  | false => exact sameButResponse_withRxbuf _ (respond _ _)
  | true =>
    simp only [if_true, hk rfl]
    exact sameButResponse_withRxbuf ..

/-! ### The operations -/

theorem wrenStep_endsAlike (h : Handle) : EndsAlike ok r1 r2 more s (wrenStep h) :=
  exchange_sameButResponse ht (by simp) fun _ _ _ => rfl

theorem wrdiStep_endsAlike (h : Handle) : EndsAlike ok r1 r2 more s (wrdiStep h) :=
  exchange_sameButResponse ht (by simp) fun _ _ _ => rfl

theorem latchStep_endsAlike : EndsAlike ok r1 r2 more s latchStep :=
  exchange_sameButResponse ht (by simp) fun _ _ _ => rfl

theorem dataStep_endsAlike (a : Addr) (d : Bytes) : EndsAlike ok r1 r2 more s (dataStep a d) := by
  refine exchange_sameButResponse ht (fun hr => ?_) fun _ _ _ => rfl
  cases d with
  | nil => cases (receive_dataFrame_nil a).symm.trans hr
  | cons b bs => cases (receive_dataFrame a (b :: bs) (by simp)).symm.trans hr

theorem rdsrStep_endsAlike (h : Handle) (hu : ok = true → r1[1]? = r2[1]?) : EndsAlike ok r1 r2 more s (rdsrStep h) := by
  refine exchange_sameButResponse ht (by simp) fun hok rx t => ?_
  rw [statusByte_fitResponse (hu hok)]
  rfl

theorem pollOnce_endsAlike (h : Handle) (hu : ok = true → r1[1]? = r2[1]?) : EndsAlike ok r1 r2 more s (pollOnce h) := by
  refine exchange_sameButResponse ht (fun _ => hu) fun hok rx t => ?_
  rw [statusByte_fitResponse (hu hok)]
  split <;> rfl

theorem pollStep_endsAlike (hu : ok = true → r1[1]? = r2[1]?) : EndsAlike ok r1 r2 more s pollStep := by
  refine exchange_sameButResponse (s := countPoll s) ht (fun _ => hu) fun hok rx t => ?_
  rw [statusByte_fitResponse (hu hok), pollAnswered_withRxbuf]

theorem readStep_endsAlike (h : Handle) (a : Addr) (n : Nat) (hu : ok = true → ∀ j < n, r1[4 + j]? = r2[4 + j]?) :
    EndsAlike ok r1 r2 more s (readStep h a n) := by
  cases hn : readOk s.cfg n with
  | true =>
    simp only [EndsAlike, readStep, answering_cfg, hn, if_true]
    refine exchange_sameButResponse ht (by simp [receive_readFrame]) fun hok rx t => ?_
    rw [readData_fitResponse (hu hok)]
    rfl
  | false =>
    simp only [EndsAlike, readStep, answering_cfg, hn, Bool.false_eq_true, if_false]
    exact ⟨rfl, rfl, rfl, rfl, rfl, rfl⟩

theorem verifyStep_endsAlike (a : Addr) (n : Nat) (hu : ok = true → ∀ j < n, r1[4 + j]? = r2[4 + j]?) :
    EndsAlike ok r1 r2 more s (verifyStep a n) := by
  refine exchange_sameButResponse ht (by simp [receive_readFrame]) fun hok rx t => ?_
  rw [readData_fitResponse (hu hok), withRxbuf_pbuf]
  split <;> rfl

/-! ### The instructions -/

/-- An accepted request latches the same with either answer, and the rest is its operation. -/
theorem acceptedTo_sameButResponse {t : State} (hu : ok = true → UsedBytesAgree i r1 r2)
    (h1 : acceptedTo i (answering ⟨ok, r1⟩ more s) = some t) :
    ∃ u, acceptedTo i (answering ⟨ok, r2⟩ more s) = some u ∧ SameButResponse t u := by
  cases i with
  | hostRead h a n => cases h1; exact ⟨_, rfl, readStep_endsAlike (s := latchRead h a n s) ht h a n hu⟩
  | hostWrite h a d v =>
    cases h1
    refine ⟨_, rfl, ?_⟩
    cases hw : writeOk s.cfg a d.length with
    | true =>
      simp only [answering_cfg, hw, if_true]
      exact latchStep_endsAlike (s := loadPayload d (latchWrite h a d.length v s)) ht
    | false =>
      simp only [answering_cfg, hw, Bool.false_eq_true, if_false]
      exact ⟨rfl, rfl, rfl, rfl, rfl, rfl⟩
  | hostRdsr h => cases h1; exact ⟨_, rfl, rdsrStep_endsAlike (s := latchOp .rdsr h s) ht h hu⟩
  | hostWren h => cases h1; exact ⟨_, rfl, wrenStep_endsAlike (s := latchOp .wren h s) ht h⟩
  | hostWrdi h => cases h1; exact ⟨_, rfl, wrdiStep_endsAlike (s := latchOp .wrdi h s) ht h⟩
  | hostPoll h => cases h1; exact ⟨_, rfl, pollOnce_endsAlike (s := latchOp .poll h s) ht h hu⟩
  | illegal6 => cases h1; exact ⟨_, rfl, rfl, rfl, rfl, rfl, rfl, rfl⟩
  | illegal7 => cases h1; exact ⟨_, rfl, rfl, rfl, rfl, rfl, rfl, rfl⟩
  | _ => cases h1

/-- A frame is sent from the same sequencer state with either answer, and the rest is its operation. -/
theorem exec_frame_sameButResponse {t : State} (hu : ok = true → UsedBytesAgree i r1 r2)
    (h1 : exec i (answering ⟨ok, r1⟩ more s) = .next t) (hn : acceptedTo i (answering ⟨ok, r1⟩ more s) = none) :
    ∃ u, exec i (answering ⟨ok, r2⟩ more s) = .next u ∧ SameButResponse t u := by
  rcases exec_wire_cases h1 hn with ⟨hs, hi⟩ | ⟨a, d, rfl, hq, rfl⟩ | ⟨rfl, hq, rfl⟩ | ⟨a, n, rfl, hq, rfl⟩
  · have hs' : (answering ⟨ok, r2⟩ more s).accepting = true := by simpa using hs
    rcases hi with ⟨a, n, rfl, rfl⟩ | ⟨rfl, rfl⟩ | ⟨rfl, rfl⟩ | ⟨rfl, rfl⟩ | ⟨rfl, rfl⟩
    · exact ⟨_, exec_wireRead_idle hs' a n, readStep_endsAlike ht _ a n hu⟩
    · exact ⟨_, onIdleFrame_accepting hs' _, rdsrStep_endsAlike ht _ hu⟩
    · exact ⟨_, onIdleFrame_accepting hs' _, wrenStep_endsAlike ht _⟩
    · exact ⟨_, onIdleFrame_accepting hs' _, wrdiStep_endsAlike ht _⟩
    · exact ⟨_, exec_wireLpwp_idle hs', pollOnce_endsAlike ht _ hu⟩
  · exact ⟨_, exec_wireWrite_latchEnabled (by simpa using hq) a d, dataStep_endsAlike ht a d⟩
  · exact ⟨_, exec_wireLpwp_polling (by simpa using hq), pollStep_endsAlike ht hu⟩
  · exact ⟨_, exec_wireRead_verifying (by simpa using hq) a n, verifyStep_endsAlike ht a n hu⟩

theorem exec_sameButResponse {t : State} (hu : ok = true → UsedBytesAgree i r1 r2)
    (h1 : exec i (answering ⟨ok, r1⟩ more s) = .next t) :
    ∃ u, exec i (answering ⟨ok, r2⟩ more s) = .next u ∧ SameButResponse t u := by
  cases ha : acceptedTo i (answering ⟨ok, r1⟩ more s) with
  | none => exact exec_frame_sameButResponse ht hu h1 ha
  | some t' =>
    obtain ⟨u, ha', hsame⟩ := acceptedTo_sameButResponse ht hu ha
    cases hs : (answering ⟨ok, r1⟩ more s).accepting with
    | false =>
      cases (exec_not_accepted hs ha).symm.trans h1
      exact ⟨_, exec_not_accepted hs ha', rfl, rfl, rfl, rfl, rfl, rfl⟩
    | true =>
      cases (exec_accepted hs ha).symm.trans h1
      exact ⟨u, exec_accepted hs ha', hsame⟩

end

/-- Settles O50, by the instruction: each makes at most one call, and goes on from it by the bytes it uses. -/
theorem discardedBytesDoNotMatter : Obligations.DiscardedBytesDoNotMatter := by
  intro s more ok r1 r2 i t1 t2 ht hu h1 h2
  obtain ⟨u, h2', hsame⟩ := exec_sameButResponse ht hu h1
  cases h2'.symm.trans h2
  exact ⟨hsame.blk, hsame.host, hsame.params, hsame.dev, hsame.log, hsame.calls⟩

end Sys2Proof.Machine
end

section
/-! The codec's data operations: ENCADDR (R110), READ (R111) and the arithmetic of the bounds check (R113). -/

namespace Sys2Proof.Machine

/-! ### ENCADDR -/

theorem encAddr_eq (op : Byte) (a : Addr) :
    encAddr op a = [op, a.extractLsb' 0 8, a.extractLsb' 8 8, a.extractLsb' 16 8] := by
  obtain ⟨h0, h1, h2⟩ := addrByte_extract a
  rw [encAddr, h0, h1, h2]

/-- Settles O5, by the address bytes as bit slices, which recompose to the address; the fixed addresses compute. -/
theorem addressPrefixLeastSignificantFirst : Obligations.AddressPrefixLeastSignificantFirst := by
  intro op a
  refine ⟨encAddr_eq op a, ?recomposed, rfl, rfl, rfl⟩
  obtain ⟨h0, h1, h2⟩ := addrByte_extract a
  rw [← h0, ← h1, ← h2]
  exact (joinAddrNat_addrByte a).symm

/-! ### READ -/

theorem readFrame_eq (a : Addr) (n : Nat) :
    readFrame a n =
      [0x03, a.extractLsb' 0 8, a.extractLsb' 8 8, a.extractLsb' 16 8] ++ List.replicate n 0x00 := by
  rw [readFrame, encAddr_eq]
  rfl

section
variable {s : State} {n : Nat} (h : Handle) (a : Addr)

theorem readStep_in_bounds (hn : 1 ≤ n ∧ n ≤ s.cfg.maxRead) :
    readStep h a n s = answeredBy h (readFrame a n) (fun rx => .success (.data (readData n rx))) s := by
  rw [readStep_eq, if_pos ((readOk_iff ..).2 hn)]

theorem readStep_out_of_bounds (hn : n = 0 ∨ s.cfg.maxRead < n) :
    readStep h a n s = respond (.failure .boundsError) s := by
  rw [readStep_eq, if_neg (by rw [readOk_iff]; omega)]

theorem readStep_seq : (readStep h a n s).blk.seq = .idle := by
  rw [readStep_eq]
  split <;> rfl

end

/-- Settles O21, by the bounds check: a count it rejects is answered at once, any other by the answer to the READ frame. -/
theorem readReturnsRequestedBytes : Obligations.ReadReturnsRequestedBytes := by
  intro s h a n hs tx r
  have hexec : exec (.hostRead h a n) s = .next (readStep h a n (latchRead h a n s)) := exec_accepted hs rfl
  have htx : readFrame a n = tx := readFrame_eq a n
  have hlen : tx.length = n + 4 := htx ▸ length_readFrame a n
  refine ⟨_, hexec, readStep_seq h a, hlen, exec_read_dev hexec (.inr (.inl ⟨h, a, n, rfl⟩)),
    fun hn => ?rejected, fun h1 hmax => ?sent⟩
  case rejected =>
    rw [readStep_out_of_bounds (s := latchRead h a n s) h a hn]
    exact ⟨rfl, rfl⟩
  case sent =>
    rw [readStep_in_bounds (s := latchRead h a n s) h a ⟨h1, hmax⟩, htx]
    obtain ⟨hdata, hbytes⟩ := readData_spec (n := n) (rx := r.rx) ((length_answer ..).trans hlen)
    exact ⟨rfl, rfl, fun hok => congrArg some (if_neg (by simpa using hok)),
      fun hok => ⟨readData n r.rx, congrArg some (if_pos hok), hdata, hbytes⟩⟩

/-! ### The bounds check -/

section
variable (c : Config)

theorem row_eq_div (a : Nat) : row c a = a / 2 ^ c.rowBits := Nat.shiftRight_eq_div_pow a c.rowBits

/-- The row clause in the words of the offset in the row, for every size of row (R113). -/
theorem row_eq_row_last_iff (a : Nat) {l : Nat} (hl : 1 ≤ l) :
    row c a = row c (a + l - 1) ↔ a % 2 ^ c.rowBits + l ≤ 2 ^ c.rowBits := by
  have hpos : 0 < 2 ^ c.rowBits := Nat.two_pow_pos _
  have hlast : a + l - 1 = a % 2 ^ c.rowBits + l - 1 + 2 ^ c.rowBits * (a / 2 ^ c.rowBits) := by
    have := Nat.mod_add_div a (2 ^ c.rowBits)
    omega
  calc row c a = row c (a + l - 1)
    _ ↔ a / 2 ^ c.rowBits = (a % 2 ^ c.rowBits + l - 1) / 2 ^ c.rowBits + a / 2 ^ c.rowBits := by
      rw [row_eq_div, row_eq_div, hlast, Nat.add_mul_div_left _ _ hpos]
    _ ↔ (a % 2 ^ c.rowBits + l - 1) / 2 ^ c.rowBits = 0 := by omega
    _ ↔ a % 2 ^ c.rowBits + l ≤ 2 ^ c.rowBits := by
      rw [Nat.div_eq_zero_iff_lt hpos]
      omega

theorem writeOk_iff_offset (a : Addr) (l : Nat) :
    writeOk c a l = true ↔ 1 ≤ l ∧ l ≤ 256 ∧ a.toNat % 2 ^ c.rowBits + l ≤ 2 ^ c.rowBits := by
  rw [writeOk_iff]
  exact and_congr_right fun hl => by rw [row_eq_row_last_iff c a.toNat hl]

theorem writeOk_eq_false_of_long (a : Addr) {l : Nat} (hl : 256 < l) : writeOk c a l = false := by
  rw [← Bool.not_eq_true, writeOk_iff]
  omega

end

section
variable {c : Config} (hrow : c.rowBits = 8)
include hrow

theorem row_eq_div_256 (a : Nat) : row c a = a / 256 := by
  rw [row_eq_div, hrow]
  rfl

theorem writeOk_iff_rows_of_256 (a : Addr) (l : Nat) :
    writeOk c a l = true ↔ 1 ≤ l ∧ a.toNat % 256 + l ≤ 256 := by
  rw [writeOk_iff_offset, hrow]
  omega

/-- The last byte of at most 256 is in the row of the first or in the next one, whose number has the other parity
(R113, item 4). -/
theorem row_last_adjacent (a : Nat) {l : Nat} (h1 : 1 ≤ l) (h256 : l ≤ 256) :
    row c (a + l - 1) = row c a ∨ row c (a + l - 1) = row c a + 1 ∧ row c (a + l - 1) % 2 ≠ row c a % 2 := by
  rw [row_eq_div_256 hrow, row_eq_div_256 hrow]
  omega

/-- Comparing bits 15 to 8 decides whether the first and last byte are in one row (R113, item 4). -/
theorem row_eq_row_last_iff_low_bits (a : Nat) {l : Nat} (h1 : 1 ≤ l) (h256 : l ≤ 256) :
    a / 256 % 256 = (a + l - 1) / 256 % 256 ↔ row c a = row c (a + l - 1) := by
  rw [row_eq_div_256 hrow, row_eq_div_256 hrow]
  omega

end

/-- Settles O7, by the row clause in the words of the offset; what R113 says of adjacent rows is arithmetic of `a / 256`. -/
theorem boundsCheckArithmetic : Obligations.BoundsCheckArithmetic := by
  refine ⟨fun c a l hrow => ⟨writeOk_iff_rows_of_256 hrow a l, fun h1 hsame => ?implied, fun h1 h256 => ⟨?last,
      row_last_adjacent hrow a.toNat h1 h256, row_eq_row_last_iff_low_bits hrow a.toNat h1 h256⟩⟩,
    fun c a hrow => ?longest, fun c a l => writeOk_eq_false_of_long c a, fun c hrow => ?top,
    fun c a l hrow => ?wide, fun c hrow => ⟨0, 257, by decide, ?wideRow, writeOk_eq_false_of_long c 0 (by decide)⟩⟩
  case implied =>
    rw [row_eq_row_last_iff c a.toNat h1, hrow] at hsame
    omega
  case last =>
    have := a.isLt
    omega
  case longest =>
    simp only [← Bool.not_eq_true, writeOk_iff_rows_of_256 hrow]
    omega
  case top =>
    rw [← Bool.not_eq_true, writeOk_iff_rows_of_256 hrow, row_eq_div_256 hrow, row_eq_div_256 hrow]
    decide
  case wide =>
    rw [writeOk_iff_offset, hrow]
    rfl
  case wideRow =>
    rw [row_eq_row_last_iff c _ (by decide), hrow]
    decide

end Sys2Proof.Machine
end

section
/-! The codec's status and control operations (R130 to R134), and which step may send which of their frames (R87, R132). -/

namespace Sys2Proof.Machine

/-! ### Single-frame operations -/

section
variable {s : State} {op : HostOp} {h : Handle} {tx : Bytes} {f : Bytes → Response}

theorem rsp_answeredBy_latchOp_ok (hok : (s.env.answer tx).ok = true) :
    (answeredBy h tx f (latchOp op h s)).blk.rsp = some (f (s.env.answer tx).rx) := congrArg some (if_pos hok)

theorem rsp_answeredBy_latchOp_failed (hok : (s.env.answer tx).ok = false) :
    (answeredBy h tx f (latchOp op h s)).blk.rsp = some (.failure .transportError) :=
  congrArg some (if_neg (by simpa using hok))

end

section
variable {s : State} (hs : s.accepting = true) (h : Handle)
include hs

theorem exec_hostRdsr_accepting :
    exec (.hostRdsr h) s =
      .next (answeredBy h rdsrFrame (fun rx => .success (.byte (statusByte rx))) (latchOp .rdsr h s)) := by
  rw [exec_accepted hs rfl, rdsrStep_eq]

theorem exec_hostWren_accepting :
    exec (.hostWren h) s = .next (answeredBy h wrenFrame (fun _ => .success .nothing) (latchOp .wren h s)) := by
  rw [exec_accepted hs rfl, wrenStep_eq]

theorem exec_hostWrdi_accepting :
    exec (.hostWrdi h) s = .next (answeredBy h wrdiFrame (fun _ => .success .nothing) (latchOp .wrdi h s)) := by
  rw [exec_accepted hs rfl, wrdiStep_eq]

theorem exec_hostPoll_accepting :
    exec (.hostPoll h) s =
      .next (answeredBy h lpwpFrame (fun rx => pollResponse (statusByte rx)) (latchOp .poll h s)) := by
  rw [exec_accepted hs rfl, pollOnce_eq]

end

/-- Settles O22: the response of RDSR is the byte at offset 1 as it stands. -/
theorem readStatusReturnsByteOne : Obligations.ReadStatusReturnsByteOne := by
  intro s h hs r
  refine ⟨_, exec_hostRdsr_accepting hs h, rfl, rfl, after_log .., after_rdsrFrame_dev .., rsp_answeredBy_latchOp_failed,
    fun hok b hb => ?_⟩
  have hbyte : b = statusByte r.rx := Option.some.inj (hb.symm.trans (answer_byte_one s.env length_rdsrFrame))
  exact hbyte ▸ rsp_answeredBy_latchOp_ok hok

/-! ### The latch of an idle device -/

/-- A call of the stub that was answered is not one of those that fail (R71). -/
theorem stubFails_of_answer_ok {e : Env} {tx : Bytes} (ht : e.transport = .stub) (hok : (e.answer tx).ok = true) :
    stubFails e = false := by
  cases hf : stubFails e with
  | false => rfl
  | true => simp [Env.answer, ht, stubAnswer, hf] at hok

section
variable {e : Env} (h : Handle) (hb : e.dev.busyLeft = 0)
include hb

/-- A WREN that is transferred to an idle device sets the latch, behind either transport (R29, R72). -/
theorem after_wrenFrame_dev_idle (hok : (e.answer wrenFrame).ok = true) :
    (e.after h wrenFrame).dev = { e.dev with wel := true } := by
  cases ht : e.transport with
  | unconstrained => simp [after_wrenFrame_dev_unconstrained h ht, hok, Device.busy, hb]
  | stub => simp [after_wrenFrame_dev_stub h ht (stubFails_of_answer_ok ht hok), hb]

/-- A WRDI that is transferred to an idle device clears the latch, behind either transport (R29, R73). -/
theorem after_wrdiFrame_dev_idle (hok : (e.answer wrdiFrame).ok = true) :
    (e.after h wrdiFrame).dev = { e.dev with wel := false } := by
  cases ht : e.transport with
  | unconstrained => simp [after_wrdiFrame_dev_unconstrained h ht, hok, Device.busy, hb]
  | stub => simp [after_wrdiFrame_dev_stub h ht (stubFails_of_answer_ok ht hok), hb]

end

/-- Settles O23, by the WREN frame's effect on an idle device. -/
theorem writeEnableSetsLatch : Obligations.WriteEnableSetsLatch := fun _ h hs =>
  ⟨_, exec_hostWren_accepting hs h, rfl, rfl, after_log .., rsp_answeredBy_latchOp_failed, rsp_answeredBy_latchOp_ok,
    fun hok hb => after_wrenFrame_dev_idle h hb hok⟩

/-- Settles O24, by the WRDI frame's effect on an idle device. -/
theorem writeDisableClearsLatch : Obligations.WriteDisableClearsLatch := fun _ h hs =>
  ⟨_, exec_hostWrdi_accepting hs h, rfl, rfl, after_log .., rsp_answeredBy_latchOp_failed, rsp_answeredBy_latchOp_ok,
    fun hok hb => after_wrdiFrame_dev_idle h hb hok⟩

/-! ### POLL -/

theorem pollResponse_busy : pollResponse 0xFF = .success (.byte 0xFF) := rfl

theorem pollResponse_idle : pollResponse 0x00 = .success (.byte 0x00) := rfl

/-- The two sentinels are the only legal bytes (R86). -/
theorem pollResponse_illegal {b : Byte} (hbusy : b ≠ 0xFF) (hidle : b ≠ 0x00) :
    pollResponse b = .failure .protocolError := by
  have hverdict : pollVerdict b = .illegal := (if_neg hidle).trans (if_neg hbusy)
  rw [pollResponse, hverdict]

/-- Settles O25, by the response to each byte that can stand at offset 1. -/
theorem pollAcceptsOnlySentinels : Obligations.PollAcceptsOnlySentinels := by
  intro s h hs r
  have hbyte : r.rx[1]? = some (statusByte r.rx) := answer_byte_one s.env length_lpwpFrame
  have hrsp (hok : r.ok = true) :
      (answeredBy h lpwpFrame (fun rx => pollResponse (statusByte rx)) (latchOp .poll h s)).blk.rsp =
        some (pollResponse (statusByte r.rx)) := rsp_answeredBy_latchOp_ok hok
  rw [hbyte]
  simp only [Option.some.injEq, ne_eq]
  refine ⟨_, exec_hostPoll_accepting hs h, rfl, rfl, after_log .., rsp_answeredBy_latchOp_failed,
    fun hok hbusy => ?_, fun hok hidle => ?_, fun hok hbusy hidle => ?_⟩
  · rw [hrsp hok, hbusy, pollResponse_busy]
  · rw [hrsp hok, hidle, pollResponse_idle]
  · rw [hrsp hok, pollResponse_illegal hbusy hidle]

/-! ### The frames a step sends -/

/-- Why a step from `s` to `t` sends the frame `tx`: it accepts a request, or the write sequencer goes on (R150). -/
inductive StepSends (s t : State) (tx : Bytes) : Prop
  | request (r : Request) (rest : List Request) (i : Instr) (hs : s.accepting = true) (hreq : s.host.requests = r :: rest)
      (hi : decodeRequest r = .ok i) (hsends : Sends i tx) (ht : acceptedTo i (withRequests rest s) = some t)
  | data (a : Addr) (d : Bytes) (htx : tx = dataFrame a d)
  | poll (htx : tx = lpwpFrame)
  | readBack (a : Addr) (n : Nat) (htx : tx = readFrame a n)

section
variable {s t : State}

theorem Called.log {h : Handle} {tx : Bytes} (hc : Called s t h tx) : t.env.log = s.env.log ++ [⟨h, tx⟩] := by
  rw [hc.env, after_log]

theorem step_sends (hstep : step s = .next t) :
    t.env.log = s.env.log ∨ ∃ h tx, t.env.log = s.env.log ++ [⟨h, tx⟩] ∧ StepSends s t tx := by
  cases step_cases hstep with
  | accept r rest i _ hq hrsp hreq hi ht =>
    rcases acceptedTo_called ht with henv | ⟨h, tx, hsends, hc⟩
    · exact .inl (by rw [henv, withRequests_env])
    · exact .inr ⟨h, tx, hc.log, .request r rest i ((accepting_iff s).2 ⟨hq, hrsp⟩) hreq hi hsends ht⟩
  | data _ _ ht => exact .inr ⟨_, _, ht ▸ (called_dataStep ..).log, .data _ _ rfl⟩
  | poll _ _ ht =>
    obtain ⟨-, -, -, hlog, -⟩ := (pollStep_env s).same
    exact .inr ⟨s.blk.opH, lpwpFrame, ht ▸ hlog, .poll rfl⟩
  | verify _ _ ht => exact .inr ⟨_, _, ht ▸ (called_verifyStep ..).log, .readBack _ _ rfl⟩
  | reset _ ht => exact .inl (ht ▸ rfl)
  | take _ _ _ _ ht => exact .inl (ht ▸ rfl)
  | wait _ _ _ _ ht => exact .inl (ht ▸ rfl)
  | sent _ _ ht => exact .inl (ht ▸ rfl)
  | done _ _ ht => exact .inl (ht ▸ rfl)

end

section
variable (a : Addr)

@[simp] theorem head?_dataFrame (d : Bytes) : (dataFrame a d).head? = some 0x02 := rfl

@[simp] theorem head?_readFrame (n : Nat) : (readFrame a n).head? = some 0x03 := rfl

end

/-- No instruction sends the frame of WRSR (R87, R134). -/
theorem Sends.head?_ne_wrsr {i : Instr} {tx : Bytes} (hsends : Sends i tx) : tx.head? ≠ some 0x01 := by
  cases hsends with
  | hostRead | wireRead | wireWrite => simp
  | _ => decide

/-- Only WRDI sends the write-disable frame (R132). -/
theorem Sends.wrdi_of_head? {i : Instr} {tx : Bytes} (hsends : Sends i tx) (hop : tx.head? = some 0x04) :
    (∃ h, i = .hostWrdi h) ∨ i = .wireWrdi := by
  cases hsends with
  | hostWrdi h => exact .inl ⟨h, rfl⟩
  | wireWrdi => exact .inr rfl
  | hostRead | wireRead | wireWrite => simp at hop
  | _ => exact absurd hop (by decide)

theorem StepSends.head?_ne_wrsr {s t : State} {tx : Bytes} (hsends : StepSends s t tx) : tx.head? ≠ some 0x01 := by
  cases hsends with
  | request r rest i _ _ _ hsends _ => exact hsends.head?_ne_wrsr
  | data a d htx => simp [htx]
  | poll htx => subst htx; decide
  | readBack a n htx => simp [htx]

/-- Settles O28, by the opcodes of the frames a step sends. -/
theorem writeStatusIsNeverSent : Obligations.WriteStatusIsNeverSent := by
  refine fun s => ⟨rfl, fun t hstep => ?_⟩
  rcases step_sends hstep with hlog | ⟨h, tx, hlog, hsends⟩
  · exact ⟨[], by simpa using hlog, by simp⟩
  · exact ⟨[⟨h, tx⟩], hlog, by simpa using hsends.head?_ne_wrsr⟩

/-- A step that sends the write-disable frame carries out a request for WRDI: no frame of the sequencer has its opcode. -/
theorem StepSends.accepts_wrdi {s t : State} {tx : Bytes} (hsends : StepSends s t tx) (hop : tx.head? = some 0x04) :
    s.accepting = true ∧ ∃ r rest g, s.host.requests = r :: rest ∧ decodeRequest r = .ok (.hostWrdi g) ∧
      t.env.log = s.env.log ++ [⟨g, wrdiFrame⟩] := by
  cases hsends with
  | request r rest i hs hreq hi hsends ht =>
    rcases hsends.wrdi_of_head? hop with ⟨g, rfl⟩ | rfl
    · cases ht
      exact ⟨hs, r, rest, g, hreq, hi, by rw [wrdiStep_env]; rfl⟩
    · cases ht
  | data a d htx => simp [htx] at hop
  | poll htx => subst htx; exact absurd hop (by decide)
  | readBack a n htx => simp [htx] at hop

/-- Settles O37: the step accepts a request for WRDI, and the one call on record is the call of that request. -/
theorem onlyTheHostDisablesWrites : Obligations.OnlyTheHostDisablesWrites := by
  intro s t h tx hstep hlog hop
  rcases step_sends hstep with hsilent | ⟨h', tx', hlog', hsends⟩
  · simp [hsilent] at hlog
  · obtain ⟨rfl, rfl⟩ : h = h' ∧ tx = tx' := by simpa using hlog.symm.trans hlog'
    obtain ⟨hs, r, rest, g, hreq, hi, hwrdi⟩ := hsends.accepts_wrdi hop
    obtain ⟨rfl, rfl⟩ : h = g ∧ tx = wrdiFrame := by simpa using hlog.symm.trans hwrdi
    exact ⟨hs, r, rest, hreq, hi, rfl⟩

end Sys2Proof.Machine
end

section
/-! The write sequencer, arrow by arrow (R150 to R159): the state each of its steps leaves. -/

namespace Sys2Proof.Machine

/-! ### The answers of each arrow's call -/

section
variable {s : State}

theorem latchStep_ok (hok : (s.env.answer wrenFrame).ok = true) :
    latchStep s = setSeq .latchEnabled (xfer s.blk.opH wrenFrame s) := exchange_ok hok

theorem latchStep_failed (hok : (s.env.answer wrenFrame).ok = false) :
    latchStep s = respond (.failure .transportError) (xfer s.blk.opH wrenFrame s) := exchange_failed hok

section
variable {a : Addr} {d : Bytes}

theorem dataStep_ok (hok : (s.env.answer (dataFrame a d)).ok = true) :
    dataStep a d s = setSeq .dataSent (xfer s.blk.opH (dataFrame a d) s) := exchange_ok hok

theorem dataStep_failed (hok : (s.env.answer (dataFrame a d)).ok = false) :
    dataStep a d s = respond (.failure .transportError) (xfer s.blk.opH (dataFrame a d) s) := exchange_failed hok

end

section
variable {a : Addr} {n : Nat}

theorem verifyStep_failed (hok : (s.env.answer (readFrame a n)).ok = false) :
    verifyStep a n s = respond (.failure .transportError) (xfer s.blk.opH (readFrame a n) s) := exchange_failed hok

variable (hok : (s.env.answer (readFrame a n)).ok = true)
include hok

theorem verifyStep_same (hback : readData n (s.env.answer (readFrame a n)).rx = s.blk.pbuf.take n) :
    verifyStep a n s = setSeq .done (xfer s.blk.opH (readFrame a n) s) :=
  (exchange_ok hok).trans (if_pos hback)

theorem verifyStep_differs (hback : readData n (s.env.answer (readFrame a n)).rx ≠ s.blk.pbuf.take n) :
    verifyStep a n s = respond (.failure .verificationError) (xfer s.blk.opH (readFrame a n) s) :=
  (exchange_ok hok).trans (if_neg hback)

end

end

/-! ### The WRITE request -/

theorem acceptedTo_hostWrite_rejected {s : State} {h : Handle} {a : Addr} {d : Bytes} {v : Bool}
    (hno : writeOk s.cfg a d.length = false) :
    acceptedTo (.hostWrite h a d v) s = some (respond (.failure .boundsError) (latchWrite h a d.length v s)) := by
  simp only [acceptedTo, hno, Bool.false_eq_true, if_false, raise_eq]

section
variable {s : State} (hs : s.accepting = true) (h : Handle) (a : Addr) {d : Bytes} (v : Bool)
include hs

theorem exec_hostWrite_rejected (hno : ¬ SameRow s.cfg a d.length) :
    exec (.hostWrite h a d v) s = .next (respond (.failure .boundsError) (latchWrite h a d.length v s)) :=
  exec_accepted hs (acceptedTo_hostWrite_rejected (Bool.eq_false_iff.2 (mt (writeOk_iff ..).1 hno)))

theorem exec_hostWrite_sameRow (hrow : SameRow s.cfg a d.length) :
    exec (.hostWrite h a d v) s = .next (latchStep (loadPayload d (latchWrite h a d.length v s))) :=
  exec_accepted hs (acceptedTo_hostWrite ((writeOk_iff ..).2 hrow))

end

/-- Settles O8: the request is latched and answered at once. -/
theorem rejectedWriteSendsNothing : Obligations.RejectedWriteSendsNothing := fun _ h a _ v hs hno =>
  ⟨_, exec_hostWrite_rejected hs h a v hno, rfl, rfl, rfl, rfl, rfl, rfl⟩

/-- Settles O9: the latches and the payload are loaded before the one call, whose answer decides the next state. -/
theorem acceptedWriteSendsWriteEnable : Obligations.AcceptedWriteSendsWriteEnable := by
  intro s h a d v hs hrow
  obtain ⟨-, hrsp⟩ := (accepting_iff s).1 hs
  refine ⟨_, exec_hostWrite_sameRow hs h a v hrow, latchStep_env _, called_latchStep.log, fun hok => ?_, fun hok => ?_⟩
  · rw [latchStep_ok (s := loadPayload d (latchWrite h a d.length v s)) hok]
    exact ⟨rfl, hrsp, rfl, rfl, rfl, rfl, by simp⟩
  · rw [latchStep_failed (s := loadPayload d (latchWrite h a d.length v s)) hok]
    exact ⟨rfl, rfl⟩

/-! ### The data frame and the start of the loop -/

theorem dataFrame_eq (a : Addr) (d : Bytes) :
    dataFrame a d = [0x02, a.extractLsb' 0 8, a.extractLsb' 8 8, a.extractLsb' 16 8] ++ d := by
  rw [dataFrame, encAddr_eq]
  rfl

/-- Settles O10, by the two answers to its one call. -/
theorem dataFrameStep : Obligations.DataFrameStep := by
  intro s hq
  refine ⟨fun hr => (step_data hr hq).trans (exec_wireWrite_latchEnabled hq _ _).symm, fun a d => ?_⟩
  dsimp only
  rw [← dataFrame_eq]
  refine ⟨_, exec_wireWrite_latchEnabled hq a d, length_dataFrame a d, dataStep_env .., (called_dataStep a d).log,
    fun hok => ?_, fun hok => ?_⟩
  · rw [dataStep_ok hok]
    exact ⟨rfl, rfl⟩
  · rw [dataStep_failed hok]
    exact ⟨rfl, rfl⟩

/-- Settles O11. -/
theorem enterPollingStep : Obligations.EnterPollingStep := by
  intro s hr hq
  rw [step_sent hr hq, enterPolling]
  cases s.cfg.pollMax <;> simp

/-! ### The read-back and the report -/

/-- The comparison of the read-back is one of positions (R158). -/
theorem readData_eq_take_iff {n : Nat} {rx p : Bytes} (hrx : rx.length = n + 4) :
    readData n rx = p.take n ↔ ∀ i < n, rx[4 + i]? = p[i]? := by
  obtain ⟨hlen, hbytes⟩ := readData_spec hrx
  constructor
  · intro heq i hi
    rw [← hbytes i hi, heq, List.getElem?_take_of_lt hi]
  · intro hall
    apply List.ext_getElem?
    intro i
    by_cases hi : i < n
    · rw [hbytes i hi, hall i hi, List.getElem?_take_of_lt hi]
    · rw [List.getElem?_eq_none (by omega), List.getElem?_eq_none (by simp; omega)]

/-- Settles O13: a transferred read-back is compared position by position. -/
theorem verificationStep : Obligations.VerificationStep := by
  intro s hr hq _
  have hstep := step_verify hr hq
  dsimp only
  rw [← readFrame_eq]
  have hsame := readData_eq_take_iff (p := s.blk.pbuf)
    ((length_answer s.env _).trans (length_readFrame s.blk.opAddr s.blk.opLen))
  refine ⟨hstep.trans (exec_wireRead_verifying hq _ _).symm, _, hstep, (called_verifyStep ..).log,
    fun hok => ?failed, fun hok hmatch => ?same, fun hok ⟨i, hi, hne⟩ => ?differs⟩
  case failed =>
    rw [verifyStep_failed hok]
    exact ⟨rfl, rfl, rfl⟩
  case same =>
    rw [verifyStep_same hok (hsame.2 hmatch)]
    exact ⟨rfl, rfl, rfl⟩
  case differs =>
    rw [verifyStep_differs hok fun heq => hne (hsame.1 heq i hi)]
    exact ⟨rfl, rfl, rfl⟩

/-- Settles O14. -/
theorem doneReportsSuccess : Obligations.DoneReportsSuccess := fun _ hr hq => step_done hr hq

/-! ### Frames the block does not send from its state -/

theorem onIdleFrame_refused {s : State} (hs : s.accepting = false) (f : State → State) :
    onIdleFrame s f = .refused .frameNotSentHere := by
  simp [onIdleFrame, hs]

/-- Settles O27, by the sequencer state each frame is sent from. -/
theorem otherFramesAreRefused : Obligations.OtherFramesAreRefused := by
  intro s a d n
  refine ⟨fun hq => ?data, fun hidle hq => ?read, fun hidle hq => ?poll, fun hq hs => ⟨?readPending, ?pollPending⟩,
    fun hs => ?bare⟩
  case data => simp only [exec, execWireWrite]
  case read => simp only [exec, execWireRead]
  case poll => simp only [exec, execWireLpwp]
  case readPending => simp only [exec, execWireRead, hq, onIdleFrame_refused hs]
  case pollPending => simp only [exec, execWireLpwp, hq, onIdleFrame_refused hs]
  case bare => exact ⟨onIdleFrame_refused hs _, onIdleFrame_refused hs _, onIdleFrame_refused hs _⟩

end Sys2Proof.Machine
end

section
/-! The poll loop of a WRITE (R156, R157): the answers that keep it going and those that end it, in the words the machine's
poll step and the function of R163 share. -/

namespace Sys2Proof.Machine

/-! ### Poll answers -/

theorem pollVerdict_busy_iff (b : Byte) : pollVerdict b = .busy ↔ b = 0xFF := by
  unfold pollVerdict
  repeat' split
  all_goals simp_all [Config.idle, Config.busy]

theorem pollVerdict_illegal_iff (b : Byte) : pollVerdict b = .illegal ↔ b ≠ 0x00 ∧ b ≠ 0xFF := by
  unfold pollVerdict
  repeat' split
  all_goals simp_all [Config.idle, Config.busy]

theorem pollBoundReached_iff (c : Config) (k : Nat) :
    pollBoundReached c k = true ↔ ∃ n, c.pollMax = some n ∧ n ≤ k := by
  unfold pollBoundReached
  cases c.pollMax <;> simp

theorem pollBoundReached_eq_false_iff (c : Config) (k : Nat) : pollBoundReached c k = false ↔ PollAllowed c k := by
  unfold pollBoundReached PollAllowed
  cases c.pollMax <;> simp

/-- The loop goes on after this answer to the poll that `k` others were sent before (R156). -/
structure StaysBusy (c : Config) (k : Nat) (a : Answer) : Prop where
  ok : a.ok = true
  busy : pollVerdict (statusByte a.rx) = .busy
  below : pollBoundReached c (k + 1) = false

/-- The loop ends with this answer: with an error, or without one on `IDLE` (R156, R157). -/
inductive LoopExit (c : Config) (k : Nat) (a : Answer) : Option ErrorKind → Prop
  | failed (hok : a.ok = false) : LoopExit c k a (some .transportError)
  | idle (hok : a.ok = true) (hv : pollVerdict (statusByte a.rx) = .idle) : LoopExit c k a none
  | illegal (hok : a.ok = true) (hv : pollVerdict (statusByte a.rx) = .illegal) : LoopExit c k a (some .protocolError)
  | bound (hok : a.ok = true) (hv : pollVerdict (statusByte a.rx) = .busy) (hb : pollBoundReached c (k + 1) = true) :
    LoopExit c k a (some .timeout)

theorem staysBusy_or_loopExit (c : Config) (k : Nat) (a : Answer) : StaysBusy c k a ∨ ∃ o, LoopExit c k a o := by
  cases hok : a.ok with
  | false => exact .inr ⟨_, .failed hok⟩
  | true =>
    cases hv : pollVerdict (statusByte a.rx) with
    | idle => exact .inr ⟨_, .idle hok hv⟩
    | illegal => exact .inr ⟨_, .illegal hok hv⟩
    | busy =>
      cases hb : pollBoundReached c (k + 1) with
      | true => exact .inr ⟨_, .bound hok hv hb⟩
      | false => exact .inl ⟨hok, hv, hb⟩

/-- What an error exit of the loop puts on record about the device (R160; log 24). -/
def noteExit : Option ErrorKind → Env → Env
  | some .timeout, e => e.endLoop .stillBusy
  | some .protocolError, e => e.endLoop .unknown
  | _, e => e

/-! ### The poll step -/

/-- The block has sent `k` polls, as far as it counts them (R25). -/
def PollsCounted (k : Nat) (s : State) : Prop := s.cfg.pollMax = none ∨ s.blk.pollCount = k

theorem nextPollCount_eq (c : Config) (k : Nat) : nextPollCount c k = if c.pollMax = none then k else k + 1 := by
  unfold nextPollCount
  cases c.pollMax <;> simp

section
variable {s : State} {k : Nat}

/-- Where polls are not counted there is no bound, so the bound is on the polls sent (R156). -/
theorem PollsCounted.bound (hk : PollsCounted k s) :
    pollBoundReached s.cfg (nextPollCount s.cfg s.blk.pollCount) = pollBoundReached s.cfg (k + 1) := by
  rcases hk with hnone | rfl
  · simp [pollBoundReached, hnone]
  · cases hmax : s.cfg.pollMax <;> simp [pollBoundReached, nextPollCount, hmax]

theorem PollsCounted.countPoll (hk : PollsCounted k s) : PollsCounted (k + 1) (countPoll s) := by
  by_cases hnone : s.cfg.pollMax = none
  · exact .inl hnone
  · refine .inr ?_
    rw [countPoll_pollCount, nextPollCount_eq, if_neg hnone, hk.resolve_left hnone]

theorem leavePolling_seq (s : State) :
    (leavePolling s).blk.seq = if s.blk.opVerify = true then .verifying else .done := by
  cases hv : s.blk.opVerify <;> simp [hv]

theorem pollStep_stays (hk : PollsCounted k s) (hb : StaysBusy s.cfg k (s.env.answer lpwpFrame)) :
    pollStep s = setSeq .polling (xfer s.blk.opH lpwpFrame (countPoll s)) := by
  rw [pollStep_ok hb.ok, pollAnswered, hb.busy]
  simp only [xfer_cfg, countPoll_cfg, xfer_pollCount, countPoll_pollCount, hk.bound, hb.below]

theorem pollStep_idle (hx : LoopExit s.cfg k (s.env.answer lpwpFrame) none) :
    pollStep s = leavePolling (xfer s.blk.opH lpwpFrame (countPoll s)) := by
  cases hx with
  | idle hok hv => rw [pollStep_ok hok, pollAnswered, hv]

/-- An answer that ends the loop with an error ends the WRITE (R156, R190). -/
theorem pollStep_error {x : ErrorKind} (hk : PollsCounted k s) (hx : LoopExit s.cfg k (s.env.answer lpwpFrame) (some x)) :
    (pollStep s).blk.seq = .idle ∧ (pollStep s).blk.rsp = some (.failure x) ∧
      (pollStep s).env = noteExit (some x) (s.env.after s.blk.opH lpwpFrame) := by
  cases hx with
  | failed hok =>
    rw [pollStep_failed hok]
    exact ⟨rfl, rfl, rfl⟩
  | illegal hok hv =>
    rw [pollStep_ok hok, pollAnswered, hv]
    exact ⟨rfl, rfl, rfl⟩
  | bound hok hv hb =>
    rw [pollStep_ok hok, pollAnswered, hv]
    simp only [xfer_cfg, countPoll_cfg, xfer_pollCount, countPoll_pollCount, hk.bound, hb]
    exact ⟨rfl, rfl, rfl⟩

end

/-- Settles O12: the byte at offset 1 is the status byte, and its verdict and the bound say how the loop goes on. -/
theorem pollStepEveryAnswer : Obligations.PollStep := by
  intro s hr hq r e
  have hstep := step_poll hr hq
  have hexec := exec_wireLpwp_polling hq
  obtain ⟨-, -, -, hlog, -⟩ := (pollStep_env s).same
  have hk : PollsCounted s.blk.pollCount s := .inr rfl
  have hbyte : r.rx[1]? = some (statusByte r.rx) := answer_byte_one s.env length_lpwpFrame
  rw [hbyte]
  simp only [Option.some.injEq, ne_eq]
  refine ⟨hstep.trans hexec.symm, _, hexec, hlog, (registersKept_pollStep s).pollCount.trans (nextPollCount_eq ..),
    fun hok => pollStep_error hk (.failed hok), fun hok hb => ?idle, fun hok hb hmax => ?bound, fun hok hb hmax => ?busy,
    fun hok hidle hbusy => pollStep_error hk (.illegal hok ((pollVerdict_illegal_iff _).2 ⟨hidle, hbusy⟩))⟩
  case idle =>
    rw [pollStep_idle (k := 0) (.idle hok ((pollVerdict_idle_iff _).2 hb))]
    exact ⟨leavePolling_seq _, rfl, rfl⟩
  case bound =>
    exact pollStep_error hk (.bound hok ((pollVerdict_busy_iff _).2 hb) ((pollBoundReached_iff ..).2 hmax))
  case busy =>
    rw [pollStep_stays hk ⟨hok, (pollVerdict_busy_iff _).2 hb, (pollBoundReached_eq_false_iff ..).2 hmax⟩]
    exact ⟨rfl, rfl, rfl⟩

/-! ### Bounded polling -/

/-- Within `m` steps from `s` a response is presented in `Idle`. -/
def RespondsWithin (m : Nat) (s : State) : Prop :=
  ∃ k t, k ≤ m ∧ runSteps k s = .next t ∧ t.blk.seq = .idle ∧ t.blk.rsp ≠ none

theorem RespondsWithin.mono {m n : Nat} {s : State} (h : RespondsWithin m s) (hmn : m ≤ n) : RespondsWithin n s := by
  obtain ⟨k, t, hk, ht⟩ := h
  exact ⟨k, t, hk.trans hmn, ht⟩

theorem RespondsWithin.of_step {m : Nat} {s t : State} (h : RespondsWithin m t) (hstep : step s = .next t) :
    RespondsWithin (m + 1) s := by
  obtain ⟨k, u, hk, hrun, hu⟩ := h
  exact ⟨k + 1, u, Nat.succ_le_succ hk, (runSteps_next hstep).trans hrun, hu⟩

theorem respondsWithin_zero {s : State} {r : Response} (hq : s.blk.seq = .idle) (hrsp : s.blk.rsp = some r) :
    RespondsWithin 0 s := ⟨0, s, le_rfl, rfl, hq, by simp [hrsp]⟩

section
variable {s : State} (hr : s.host.resetLine = false)
include hr

theorem respondsWithin_done (hq : s.blk.seq = .done) : RespondsWithin 1 s :=
  (respondsWithin_zero rfl rfl).of_step (step_done hr hq)

theorem respondsWithin_verifying (hq : s.blk.seq = .verifying) : RespondsWithin 2 s := by
  refine RespondsWithin.of_step ?_ (step_verify hr hq)
  cases hok : (s.env.answer (readFrame s.blk.opAddr s.blk.opLen)).ok with
  | false =>
    rw [verifyStep_failed hok]
    exact (respondsWithin_zero rfl rfl).mono (Nat.zero_le 1)
  | true =>
    by_cases hback :
        readData s.blk.opLen (s.env.answer (readFrame s.blk.opAddr s.blk.opLen)).rx = s.blk.pbuf.take s.blk.opLen
    · rw [verifyStep_same hok hback]
      exact respondsWithin_done hr rfl
    · rw [verifyStep_differs hok hback]
      exact (respondsWithin_zero rfl rfl).mono (Nat.zero_le 1)

/-- An answer that ends the loop leads to a response within two more steps (R157 to R159). -/
theorem respondsWithin_loopExit (hq : s.blk.seq = .polling) {k : Nat} {o : Option ErrorKind} (hk : PollsCounted k s)
    (hx : LoopExit s.cfg k (s.env.answer lpwpFrame) o) : RespondsWithin 3 s := by
  refine RespondsWithin.of_step ?_ (step_poll hr hq)
  cases o with
  | some x =>
    obtain ⟨hidle, hrsp, -⟩ := pollStep_error hk hx
    exact (respondsWithin_zero hidle hrsp).mono (Nat.zero_le 2)
  | none =>
    rw [pollStep_idle hx]
    have hseq := leavePolling_seq (xfer s.blk.opH lpwpFrame (countPoll s))
    split at hseq
    · exact respondsWithin_verifying (by exact hr) hseq
    · exact (respondsWithin_done (by exact hr) hseq).mono one_le_two

end

/-- With at most `m + 1` polls left, the loop ends within them and the WRITE within two more steps. -/
theorem respondsWithin_polling {s : State} {n m : Nat} (hr : s.host.resetLine = false) (hq : s.blk.seq = .polling)
    (hmax : s.cfg.pollMax = some n) (hleft : n ≤ s.blk.pollCount + m + 1) : RespondsWithin (m + 3) s := by
  induction m generalizing s with
  | zero =>
    rcases staysBusy_or_loopExit s.cfg s.blk.pollCount (s.env.answer lpwpFrame) with hb | ⟨o, hx⟩
    · have := pollAllowed_of_not_reached hb.below n hmax
      omega
    · exact respondsWithin_loopExit hr hq (.inr rfl) hx
  | succ m ih =>
    rcases staysBusy_or_loopExit s.cfg s.blk.pollCount (s.env.answer lpwpFrame) with hb | ⟨o, hx⟩
    · refine RespondsWithin.of_step ?_ (step_poll hr hq)
      rw [pollStep_stays (.inr rfl) hb]
      refine ih hr rfl hmax ?_
      simp [nextPollCount, hmax]
      omega
    · exact (respondsWithin_loopExit hr hq (.inr rfl) hx).mono (by omega)

/-- Settles O20: `n - poll_count` polls are left. -/
theorem boundedPollingEnds : Obligations.BoundedPollingEnds := by
  intro s n hr hq hmax hlt
  exact (respondsWithin_polling (m := n - s.blk.pollCount - 1) hr hq hmax (by omega)).mono (by omega)

end Sys2Proof.Machine
end

section
/-! The state graph of the write sequencer (R150): where each step leads, and the frame it sends on the way. -/

namespace Sys2Proof.Machine

section
variable {s t : State}

/-- The frames a request is carried out with (R21). -/
theorem Sends.frame_of_request {i : Instr} {tx : Bytes} (hsends : Sends i tx) (ht : acceptedTo i s = some t) :
    tx = wrenFrame ∨ tx = wrdiFrame ∨ tx = rdsrFrame ∨ tx = lpwpFrame ∨ ∃ a n, tx = readFrame a n := by
  cases hsends with
  | hostRead h a n => simp
  | wireWrite a d => cases ht
  | _ => simp

/-- A request is over once it was accepted, but for a WRITE that passed the bounds check and whose write-enable frame did not
fail (R153). -/
theorem acceptedTo_seq {i : Instr} (ht : acceptedTo i s = some t) :
    t.blk.seq = .idle ∨ ∃ h a d v, i = .hostWrite h a d v ∧ writeOk s.cfg a d.length = true ∧
      t.blk.seq = .latchEnabled ∧ t.env.log = s.env.log ++ [⟨h, wrenFrame⟩] := by
  cases i with
  | hostWrite h a d v =>
    cases hok : writeOk s.cfg a d.length with
    | false =>
      rw [acceptedTo_hostWrite_rejected hok, Option.some.injEq] at ht
      exact .inl (ht ▸ rfl)
    | true =>
      rw [acceptedTo_hostWrite hok, Option.some.injEq] at ht
      subst ht
      cases hsent : (s.env.answer wrenFrame).ok with
      | false => exact .inl (by rw [latchStep_failed (by exact hsent), respond_seq])
      | true =>
        refine .inr ⟨h, a, d, v, rfl, hok, ?_, called_latchStep.log⟩
        rw [latchStep_ok (by exact hsent), setSeq_seq]
  | hostRead h a n => cases ht; exact .inl (readStep_seq h a)
  | hostRdsr h => cases ht; exact .inl (by rw [rdsrStep_eq]; rfl)
  | hostWren h => cases ht; exact .inl (by rw [wrenStep_eq]; rfl)
  | hostWrdi h => cases ht; exact .inl (by rw [wrdiStep_eq]; rfl)
  | hostPoll h => cases ht; exact .inl (by rw [pollOnce_eq]; rfl)
  | illegal6 => cases ht; exact .inl rfl
  | illegal7 => cases ht; exact .inl rfl
  | _ => cases ht

theorem dataStep_seq (a : Addr) (d : Bytes) : (dataStep a d s).blk.seq = .dataSent ∨ (dataStep a d s).blk.seq = .idle :=
  exchange_induct (P := fun t => t.blk.seq = .dataSent ∨ t.blk.seq = .idle) (.inr rfl) fun _ => .inl rfl

theorem verifyStep_seq (a : Addr) (n : Nat) :
    (verifyStep a n s).blk.seq = .done ∨ (verifyStep a n s).blk.seq = .idle :=
  exchange_induct (P := fun t => t.blk.seq = .done ∨ t.blk.seq = .idle) (.inr rfl) fun _ => by
    split
    · exact .inl rfl
    · exact .inr rfl

theorem pollStep_seq : (pollStep s).blk.seq = .polling ∨ (pollStep s).blk.seq = .verifying ∧ s.blk.opVerify = true ∨
    (pollStep s).blk.seq = .done ∧ s.blk.opVerify = false ∨ (pollStep s).blk.seq = .idle := by
  cases hok : (s.env.answer lpwpFrame).ok with
  | false => simp [pollStep_failed hok]
  | true =>
    rcases pollStep_ends hok with ⟨hseq, -⟩ | ⟨hseq | hseq, -⟩ | ⟨hseq, -⟩ | ⟨hseq, -⟩ <;> simp [hseq]

end

/-- Settles O15, by the cases of a step. -/
theorem stateGraphArrows : Obligations.StateGraphArrows := by
  intro s t hline hstep
  dsimp only
  rw [← dataFrame_eq, ← readFrame_eq]
  cases step_cases hstep with
  | reset hr _ => simp [hline] at hr
  | take r _ hq _ ht => exact .inl ⟨hq, ht ▸ hq, .inl (ht ▸ rfl)⟩
  | wait _ hq _ _ ht => exact .inl ⟨hq, ht ▸ hq, .inl (ht ▸ rfl)⟩
  | accept r rest i _ hq hrsp hreq hi ht =>
    rcases acceptedTo_seq ht with hidle | ⟨h, a, d, v, rfl, hok, hseq, hlog⟩
    · refine .inl ⟨hq, hidle, (acceptedTo_called ht).imp_right fun ⟨h, tx, hsends, hc⟩ => ?_⟩
      exact ⟨h, tx, hc.log, hsends.frame_of_request ht⟩
    · exact .inr (.inl ⟨hq, hseq, r, rest, h, a, d, v, hreq, hi, (writeOk_iff ..).1 hok, hlog⟩)
  | data _ hq ht =>
    subst ht
    exact .inr (.inr (.inl ⟨hq, dataStep_seq .., (called_dataStep ..).log⟩))
  | sent _ hq ht => exact .inr (.inr (.inr (.inl ⟨hq, ht ▸ rfl, ht ▸ rfl⟩)))
  | poll _ hq ht =>
    subst ht
    obtain ⟨-, -, -, hlog, -⟩ := (pollStep_env s).same
    exact .inr (.inr (.inr (.inr (.inl ⟨hq, pollStep_seq, hlog⟩))))
  | verify _ hq ht =>
    subst ht
    exact .inr (.inr (.inr (.inr (.inr (.inl ⟨hq, verifyStep_seq .., (called_verifyStep ..).log⟩)))))
  | done _ hq ht => exact .inr (.inr (.inr (.inr (.inr (.inr ⟨hq, ht ▸ rfl, ht ▸ rfl, ht ▸ rfl⟩)))))

end Sys2Proof.Machine
end

section
/-! The WRITE as one function (R163), by its ways to end, and the machine's steps that compute it. -/

namespace Sys2Proof.Machine

/-! ### The poll loop -/

/-- The loop that has sent `k` polls ends, from `e`, with `o` in the environment `e'`. -/
inductive LoopEnds (c : Config) (h : Handle) : Nat → Env → Option ErrorKind → Env → Prop
  | last {k : Nat} {e : Env} {o : Option ErrorKind} (hx : LoopExit c k (e.answer lpwpFrame) o) :
    LoopEnds c h k e o (noteExit o (e.after h lpwpFrame))
  | again {k : Nat} {e e' : Env} {o : Option ErrorKind} (hb : StaysBusy c k (e.answer lpwpFrame))
    (hrest : LoopEnds c h (k + 1) (e.after h lpwpFrame) o e') : LoopEnds c h k e o e'

section
variable {c : Config} {h : Handle} {fuel k : Nat} {e : Env}

theorem pollFunction_succ (c : Config) (h : Handle) (fuel k : Nat) (e : Env) :
    pollFunction c h (fuel + 1) k e =
      if (e.answer lpwpFrame).ok = false then some (some .transportError, e.after h lpwpFrame)
      else if statusByte (e.answer lpwpFrame).rx = 0x00 then some (none, e.after h lpwpFrame)
      else if statusByte (e.answer lpwpFrame).rx ≠ 0xFF then
        some (some .protocolError, (e.after h lpwpFrame).endLoop .unknown)
      else if pollBoundReached c (k + 1) = true then some (some .timeout, (e.after h lpwpFrame).endLoop .stillBusy)
      else pollFunction c h fuel (k + 1) (e.after h lpwpFrame) := by
  cases hmax : c.pollMax with
  | none => simp only [pollFunction, pollBoundReached, hmax, Bool.false_eq_true, if_false]; rfl
  | some n => simp only [pollFunction, pollBoundReached, hmax, decide_eq_true_eq, ge_iff_le]; rfl

theorem pollFunction_stays (hb : StaysBusy c k (e.answer lpwpFrame)) :
    pollFunction c h (fuel + 1) k e = pollFunction c h fuel (k + 1) (e.after h lpwpFrame) := by
  have hbyte := (pollVerdict_busy_iff _).1 hb.busy
  simp [pollFunction_succ, hb.ok, hbyte, hb.below]

theorem pollFunction_exit {o : Option ErrorKind} (hx : LoopExit c k (e.answer lpwpFrame) o) :
    pollFunction c h (fuel + 1) k e = some (o, noteExit o (e.after h lpwpFrame)) := by
  cases hx with
  | failed hok => simp [pollFunction_succ, hok, noteExit]
  | idle hok hv => simp [pollFunction_succ, hok, (pollVerdict_idle_iff _).1 hv, noteExit]
  | illegal hok hv =>
    obtain ⟨hidle, hbusy⟩ := (pollVerdict_illegal_iff _).1 hv
    rw [pollFunction_succ, if_neg (by simp [hok]), if_neg hidle, if_pos hbusy, noteExit]
  | bound hok hv hb => simp [pollFunction_succ, hok, (pollVerdict_busy_iff _).1 hv, hb, noteExit]

theorem loopEnds_of_pollFunction {o : Option ErrorKind} {e' : Env} (hp : pollFunction c h fuel k e = some (o, e')) :
    LoopEnds c h k e o e' := by
  induction fuel generalizing k e with
  | zero => cases hp
  | succ fuel ih =>
    rcases staysBusy_or_loopExit c k (e.answer lpwpFrame) with hb | ⟨o', hx⟩
    · rw [pollFunction_stays hb] at hp
      exact .again hb (ih hp)
    · rw [pollFunction_exit hx] at hp
      cases hp
      exact .last hx

/-- A loop that is not over has met an answer that keeps it going, and is not over after that. -/
theorem staysBusy_of_pollFunction (hp : pollFunction c h (fuel + 1) k e = none) :
    StaysBusy c k (e.answer lpwpFrame) ∧ pollFunction c h fuel (k + 1) (e.after h lpwpFrame) = none := by
  rcases staysBusy_or_loopExit c k (e.answer lpwpFrame) with hb | ⟨o, hx⟩
  · exact ⟨hb, pollFunction_stays hb ▸ hp⟩
  · rw [pollFunction_exit hx] at hp
    cases hp

end

/-! ### The whole function -/

/-- The bounds check, the write-enable frame and the data frame of a WRITE, all passed (R152 to R154). -/
structure DataAccepted (c : Config) (h : Handle) (a : Addr) (p : Bytes) (e : Env) : Prop where
  bounds : writeOk c a p.length = true
  enabled : (e.answer wrenFrame).ok = true
  sent : ((e.after h wrenFrame).answer (dataFrame a p)).ok = true

/-- The environment after those two frames. -/
def Env.afterData (e : Env) (h : Handle) (a : Addr) (p : Bytes) : Env := (e.after h wrenFrame).after h (dataFrame a p)

/-- The verification step of R163 ends with the response `w` in `e'`, if it is run at all. -/
inductive VerifyEnds (h : Handle) (a : Addr) (p : Bytes) (e : Env) : Bool → Response → Env → Prop
  | skipped : VerifyEnds h a p e false (.success .nothing) e
  | failed (hok : (e.answer (readFrame a p.length)).ok = false) :
    VerifyEnds h a p e true (.failure .transportError) (e.after h (readFrame a p.length))
  | differs (hok : (e.answer (readFrame a p.length)).ok = true)
    (hback : readData p.length (e.answer (readFrame a p.length)).rx ≠ p) :
    VerifyEnds h a p e true (.failure .verificationError) (e.after h (readFrame a p.length))
  | same (hok : (e.answer (readFrame a p.length)).ok = true)
    (hback : readData p.length (e.answer (readFrame a p.length)).rx = p) :
    VerifyEnds h a p e true (.success .nothing) (e.after h (readFrame a p.length))

/-- The WRITE of R163 ends with the response `w` in `e'`. -/
inductive WriteEnds (c : Config) (h : Handle) (a : Addr) (p : Bytes) (v : Bool) (e : Env) : Response → Env → Prop
  | rejected (hb : writeOk c a p.length = false) : WriteEnds c h a p v e (.failure .boundsError) e
  | enableFailed (hb : writeOk c a p.length = true) (hok : (e.answer wrenFrame).ok = false) :
    WriteEnds c h a p v e (.failure .transportError) (e.after h wrenFrame)
  | dataFailed (hb : writeOk c a p.length = true) (hen : (e.answer wrenFrame).ok = true)
    (hok : ((e.after h wrenFrame).answer (dataFrame a p)).ok = false) :
    WriteEnds c h a p v e (.failure .transportError) (e.afterData h a p)
  | loopError {k : ErrorKind} {e' : Env} (hd : DataAccepted c h a p e)
    (hl : LoopEnds c h 0 (e.afterData h a p) (some k) e') : WriteEnds c h a p v e (.failure k) e'
  | written {w : Response} {e₁ e' : Env} (hd : DataAccepted c h a p e)
    (hl : LoopEnds c h 0 (e.afterData h a p) none e₁) (hv : VerifyEnds h a p (e₁.endLoop (.written v)) v w e') :
    WriteEnds c h a p v e w e'

section
variable {c : Config} {fuel : Nat} {h : Handle} {a : Addr} {p : Bytes} {v : Bool} {e e' : Env} {w : Response}

theorem verifyEnds_verifyFunction (h : Handle) (a : Addr) (p : Bytes) (v : Bool) (e : Env) :
    VerifyEnds h a p e v (verifyFunction h a p v e).1 (verifyFunction h a p v e).2 := by
  cases v with
  | false => exact .skipped
  | true =>
    simp only [verifyFunction, if_true]
    split
    · next hok => exact .failed hok
    next hok =>
    have hok := Bool.eq_true_of_not_eq_false hok
    split
    · next hback => exact .differs hok hback
    · next hback => exact .same hok (not_not.1 hback)

theorem writeEnds_of_writeFunction (hw : writeFunction c fuel h a p v e = some (w, e')) : WriteEnds c h a p v e w e' := by
  unfold writeFunction at hw
  dsimp only at hw
  split at hw
  · next hb => cases hw; exact .rejected hb
  next hb =>
  have hb := Bool.eq_true_of_not_eq_false hb
  split at hw
  · next hok => cases hw; exact .enableFailed hb hok
  next hen =>
  have hen := Bool.eq_true_of_not_eq_false hen
  split at hw
  · next hok => cases hw; exact .dataFailed hb hen hok
  next hok =>
  have hd : DataAccepted c h a p e := ⟨hb, hen, Bool.eq_true_of_not_eq_false hok⟩
  split at hw
  · cases hw
  · next hp => cases hw; exact .loopError hd (loopEnds_of_pollFunction hp)
  · next e₁ hp =>
    have hv := verifyEnds_verifyFunction h a p v (e₁.endLoop (.written v))
    rw [Option.some.inj hw] at hv
    exact .written hd (loopEnds_of_pollFunction hp) hv

/-- A WRITE that is not over is in its poll loop (R163, R216). -/
theorem pollFunction_of_writeFunction (hw : writeFunction c fuel h a p v e = none) :
    DataAccepted c h a p e ∧ pollFunction c h fuel 0 (e.afterData h a p) = none := by
  unfold writeFunction at hw
  dsimp only at hw
  split at hw
  · cases hw
  next hb =>
  split at hw
  · cases hw
  next hen =>
  split at hw
  · cases hw
  next hok =>
  split at hw
  · next hp =>
    exact ⟨⟨Bool.eq_true_of_not_eq_false hb, Bool.eq_true_of_not_eq_false hen, Bool.eq_true_of_not_eq_false hok⟩, hp⟩
  · cases hw
  · cases hw

end

end Sys2Proof.Machine
end

section
/-! The machine computes the function of R163: what a WRITE in progress holds, arrow by arrow, and where its arrows lead. -/

namespace Sys2Proof.Machine

/-- What a WRITE was accepted with (R151), and the parameters and the host it runs under. -/
structure WriteJob where
  cfg : Config
  host : HostPort
  h : Handle
  addr : Addr
  payload : Bytes
  verify : Bool

/-- The WRITE is in progress in the sequencer state `q`, with this environment. -/
structure WriteJob.At (j : WriteJob) (q : SeqState) (e : Env) (s : State) : Prop where
  params : s.cfg = j.cfg
  host : s.host = j.host
  handle : s.blk.opH = j.h
  addr : s.blk.opAddr = j.addr
  len : s.blk.opLen = j.payload.length
  verify : s.blk.opVerify = j.verify
  payload : s.blk.pbuf.take j.payload.length = j.payload
  pending : s.blk.rsp = none
  seq : s.blk.seq = q
  env : s.env = e

/-- The WRITE is over, with the response `w`. -/
structure WriteJob.Over (j : WriteJob) (w : Response) (e : Env) (t : State) : Prop where
  params : t.cfg = j.cfg
  host : t.host = j.host
  seq : t.blk.seq = .idle
  rsp : t.blk.rsp = some w
  env : t.env = e

/-- The poll loop is over: the WRITE with it, or it is at what follows an `IDLE` (R157). -/
def WriteJob.AfterLoop (j : WriteJob) : Option ErrorKind → Env → State → Prop
  | some x, e, t => j.Over (.failure x) e t
  | none, e, t => j.At (if j.verify = true then .verifying else .done) (e.endLoop (.written j.verify)) t

section
variable {j : WriteJob} {q : SeqState} {e : Env} {s t : State}

theorem WriteJob.At.of_kept {q' : SeqState} {e' : Env} (hs : j.At q e s) (hk : RegistersKept s t)
    (hrsp : t.blk.rsp = s.blk.rsp) (hseq : t.blk.seq = q') (henv : t.env = e') : j.At q' e' t where
  params := hk.params.trans hs.params
  host := hk.host.trans hs.host
  handle := hk.opH.trans hs.handle
  addr := hk.opAddr.trans hs.addr
  len := hk.opLen.trans hs.len
  verify := hk.opVerify.trans hs.verify
  payload := by rw [hk.pbuf, hs.payload]
  pending := hrsp.trans hs.pending
  seq := hseq
  env := henv

theorem WriteJob.At.over {w : Response} {e' : Env} (hs : j.At q e s) (hk : RegistersKept s t) (hseq : t.blk.seq = .idle)
    (hrsp : t.blk.rsp = some w) (henv : t.env = e') : j.Over w e' t :=
  ⟨hk.params.trans hs.params, hk.host.trans hs.host, hseq, hrsp, henv⟩

/-- The one call of an arrow, in the words of the job. -/
theorem WriteJob.At.env_after {tx : Bytes} (hs : j.At q e s) (ht : t.env = s.env.after s.blk.opH tx) :
    t.env = e.after j.h tx := by
  rw [ht, hs.env, hs.handle]

theorem WriteJob.At.countPoll (hs : j.At q e s) : j.At q e (countPoll s) := { hs with }

end

/-! ### The arrows -/

section
variable {j : WriteJob} {q : SeqState} {e : Env} {s : State}

/-- `Idle → LatchEnabled` (R153). -/
theorem WriteJob.At.latchStep (hs : j.At q e s) (hok : (e.answer wrenFrame).ok = true) :
    j.At .latchEnabled (e.after j.h wrenFrame) (latchStep s) := by
  have heq := latchStep_ok (hs.env ▸ hok)
  refine hs.of_kept (registersKept_latchStep s) ?_ ?_ (hs.env_after (latchStep_env s)) <;> rw [heq] <;> rfl

theorem WriteJob.At.latchStep_failed (hs : j.At q e s) (hok : (e.answer wrenFrame).ok = false) :
    j.Over (.failure .transportError) (e.after j.h wrenFrame) (Machine.latchStep s) := by
  have heq := Machine.latchStep_failed (hs.env ▸ hok)
  refine hs.over (registersKept_latchStep s) ?_ ?_ (hs.env_after (latchStep_env s)) <;> rw [heq] <;> rfl

variable (hr : j.host.resetLine = false)
include hr

theorem WriteJob.At.step_data (hs : j.At .latchEnabled e s) : step s = .next (dataStep j.addr j.payload s) := by
  rw [Machine.step_data (hs.host ▸ hr) hs.seq, livePayload, hs.addr, hs.len, hs.payload]

/-- `LatchEnabled → DataSent` (R154). -/
theorem WriteJob.At.data (hs : j.At .latchEnabled e s) (hok : (e.answer (dataFrame j.addr j.payload)).ok = true) :
    ∃ t, step s = .next t ∧ j.At .dataSent (e.after j.h (dataFrame j.addr j.payload)) t := by
  have heq := dataStep_ok (hs.env ▸ hok)
  refine ⟨_, hs.step_data hr, hs.of_kept (registersKept_dataStep ..) ?_ ?_ (hs.env_after (dataStep_env ..))⟩ <;>
    rw [heq] <;> rfl

theorem WriteJob.At.data_failed (hs : j.At .latchEnabled e s)
    (hok : (e.answer (dataFrame j.addr j.payload)).ok = false) :
    ∃ t, step s = .next t ∧ j.Over (.failure .transportError) (e.after j.h (dataFrame j.addr j.payload)) t := by
  have heq := dataStep_failed (hs.env ▸ hok)
  refine ⟨_, hs.step_data hr, hs.over (registersKept_dataStep ..) ?_ ?_ (hs.env_after (dataStep_env ..))⟩ <;>
    rw [heq] <;> rfl

/-- `DataSent → Polling`: no poll was sent yet (R155). -/
theorem WriteJob.At.sent (hs : j.At .dataSent e s) : ∃ t, step s = .next t ∧ j.At .polling e t ∧ PollsCounted 0 t := by
  refine ⟨_, step_sent (hs.host ▸ hr) hs.seq, { hs with seq := rfl }, ?_⟩
  unfold PollsCounted enterPolling
  cases s.cfg.pollMax <;> simp

/-- `Polling → Polling` (R156). -/
theorem WriteJob.At.poll {k : Nat} (hs : j.At .polling e s) (hk : PollsCounted k s)
    (hb : StaysBusy j.cfg k (e.answer lpwpFrame)) :
    ∃ t, step s = .next t ∧ j.At .polling (e.after j.h lpwpFrame) t ∧ PollsCounted (k + 1) t := by
  have hstay := pollStep_stays hk (hs.params ▸ hs.env ▸ hb)
  have hkept := registersKept_pollStep s
  refine ⟨_, step_poll (hs.host ▸ hr) hs.seq, ?_⟩
  rw [hstay] at hkept ⊢
  exact ⟨hs.countPoll.of_kept hkept rfl rfl (hs.env_after rfl), hk.countPoll⟩

/-- `Polling → Idle` on an error, `Polling → Verifying` or `Done` without one (R156, R157). -/
theorem WriteJob.At.poll_exit {k : Nat} {o : Option ErrorKind} (hs : j.At .polling e s) (hk : PollsCounted k s)
    (hx : LoopExit j.cfg k (e.answer lpwpFrame) o) :
    ∃ t, step s = .next t ∧ j.AfterLoop o (noteExit o (e.after j.h lpwpFrame)) t := by
  obtain rfl := hs.env
  have hx := hs.params ▸ hx
  have hkept := registersKept_pollStep s
  refine ⟨_, step_poll (hs.host ▸ hr) hs.seq, ?_⟩
  cases o with
  | some x =>
    obtain ⟨hseq, hrsp, henv⟩ := pollStep_error hk hx
    rw [hs.handle] at henv
    exact hs.countPoll.over hkept hseq hrsp henv
  | none =>
    refine hs.countPoll.of_kept hkept ?_ ?_ ?_ <;> rw [pollStep_idle hx]
    · rfl
    · rw [leavePolling_seq, ← hs.verify]; rfl
    · rw [← hs.handle, ← hs.verify]; rfl

/-- The poll steps lead where the loop of R163 ends. -/
theorem WriteJob.At.loop {k : Nat} {o : Option ErrorKind} {e' : Env} (hs : j.At .polling e s) (hk : PollsCounted k s)
    (hl : LoopEnds j.cfg j.h k e o e') : ∃ t, Reaches s t ∧ j.AfterLoop o e' t := by
  induction hl generalizing s with
  | last hx =>
    obtain ⟨t, hstep, ht⟩ := hs.poll_exit hr hk hx
    exact ⟨t, reaches_step hstep, ht⟩
  | again hb _ ih =>
    obtain ⟨t, hstep, ht, hk'⟩ := hs.poll hr hk hb
    obtain ⟨u, hreach, hu⟩ := ih ht hk'
    exact ⟨u, (reaches_step hstep).trans hreach, hu⟩

/-- `Done → Idle` (R159). -/
theorem WriteJob.At.done (hs : j.At .done e s) : ∃ t, step s = .next t ∧ j.Over (.success .nothing) e t :=
  ⟨_, step_done (hs.host ▸ hr) hs.seq, hs.params, hs.host, rfl, rfl, hs.env⟩

/-- The verification step and the report give the response of R163 (R158, R159). -/
theorem WriteJob.At.verification {v : Bool} {w : Response} {e' : Env}
    (hs : j.At (if v = true then .verifying else .done) e s) (hv : VerifyEnds j.h j.addr j.payload e v w e') :
    ∃ t, Reaches s t ∧ j.Over w e' t := by
  cases v with
  | false =>
    cases hv
    obtain ⟨t, hstep, ht⟩ := hs.done hr
    exact ⟨t, reaches_step hstep, ht⟩
  | true =>
    obtain rfl := hs.env
    have hstep := step_verify (hs.host ▸ hr) hs.seq
    have hkept := registersKept_verifyStep s j.addr j.payload.length
    have henv := hs.env_after (verifyStep_env s j.addr j.payload.length)
    have hback := hs.payload
    rw [hs.addr, hs.len] at hstep
    cases hv with
    | failed hok =>
      refine ⟨_, reaches_step hstep, hs.over hkept ?_ ?_ henv⟩ <;> rw [verifyStep_failed hok] <;> rfl
    | differs hok hne =>
      have hstep' := verifyStep_differs hok (hback.symm ▸ hne)
      refine ⟨_, reaches_step hstep, hs.over hkept ?_ ?_ henv⟩ <;> rw [hstep'] <;> rfl
    | same hok heq =>
      have hdone : j.At .done (s.env.after j.h (readFrame j.addr j.payload.length))
          (verifyStep j.addr j.payload.length s) := by
        refine hs.of_kept hkept ?_ ?_ henv <;> rw [verifyStep_same hok (heq.trans hback.symm)] <;> rfl
      obtain ⟨t, hstep', ht⟩ := hdone.done hr
      exact ⟨t, (reaches_step hstep).trans (reaches_step hstep'), ht⟩

end

/-! ### From acceptance on -/

/-- What the request on the port and the state of the block must be for the next step to accept the WRITE `j` (R66, R151). -/
structure WriteJob.Presented (j : WriteJob) (s : State) : Prop where
  params : s.cfg = j.cfg
  released : s.host.resetLine = false
  accepting : s.accepting = true
  request : ∃ r rest, s.host.requests = r :: rest ∧ decodeRequest r = .ok (.hostWrite j.h j.addr j.payload j.verify) ∧
    j.host = { s.host with requests := rest }

theorem presented_of_request {s : State} {r : Request} {rest : List Request} {h : Handle} {a : Addr} {d : Bytes} {v : Bool}
    (hr : s.host.resetLine = false) (hs : s.accepting = true) (hreq : s.host.requests = r :: rest)
    (hi : decodeRequest r = .ok (.hostWrite h a d v)) :
    WriteJob.Presented ⟨s.cfg, { s.host with requests := rest }, h, a, d, v⟩ s :=
  ⟨rfl, hr, hs, r, rest, hreq, hi, rfl⟩

section
variable {j : WriteJob} {s : State}

theorem WriteJob.Presented.host_released (hs : j.Presented s) : j.host.resetLine = false := by
  obtain ⟨r, rest, -, -, hhost⟩ := hs.request
  rw [hhost]
  exact hs.released

/-- Acceptance loads the latches and the payload, and sends the write-enable frame if the bounds check passed (R153). -/
theorem WriteJob.Presented.accept (hs : j.Presented s) (hb : writeOk j.cfg j.addr j.payload.length = true) :
    ∃ u, step s = .next (latchStep u) ∧ j.At .idle s.env u := by
  obtain ⟨hcfg, hr, hacc, r, rest, hreq, hi, hhost⟩ := hs
  obtain ⟨hq, hrsp⟩ := (accepting_iff s).1 hacc
  refine ⟨_, step_accept hr hacc hreq hi (acceptedTo_hostWrite (hcfg ▸ hb)), hcfg, hhost.symm, rfl, rfl, rfl, rfl, ?_, hrsp,
    hq, rfl⟩
  simp

theorem WriteJob.Presented.reject (hs : j.Presented s) (hb : writeOk j.cfg j.addr j.payload.length = false) :
    ∃ t, step s = .next t ∧ j.Over (.failure .boundsError) s.env t := by
  obtain ⟨hcfg, hr, hacc, r, rest, hreq, hi, hhost⟩ := hs
  have hstep := step_accept hr hacc hreq hi (acceptedTo_hostWrite_rejected (hcfg ▸ hb))
  exact ⟨_, hstep, hcfg, hhost.symm, rfl, rfl, rfl⟩

theorem WriteJob.Presented.latchEnabled (hs : j.Presented s) (hb : writeOk j.cfg j.addr j.payload.length = true)
    (hok : (s.env.answer wrenFrame).ok = true) :
    ∃ t, step s = .next t ∧ j.At .latchEnabled (s.env.after j.h wrenFrame) t := by
  obtain ⟨u, hstep, hu⟩ := hs.accept hb
  exact ⟨_, hstep, hu.latchStep hok⟩

/-- The run of the machine ends as the function of R163 does. -/
theorem WriteJob.Presented.run {w : Response} {e' : Env} (hs : j.Presented s)
    (hw : WriteEnds j.cfg j.h j.addr j.payload j.verify s.env w e') : ∃ t, Reaches s t ∧ j.Over w e' t := by
  have hr := hs.host_released
  have hpolling (hd : DataAccepted j.cfg j.h j.addr j.payload s.env) :
      ∃ t, Reaches s t ∧ j.At .polling (s.env.afterData j.h j.addr j.payload) t ∧ PollsCounted 0 t := by
    obtain ⟨s₁, hstep₁, hs₁⟩ := hs.latchEnabled hd.bounds hd.enabled
    obtain ⟨s₂, hstep₂, hs₂⟩ := hs₁.data hr hd.sent
    obtain ⟨s₃, hstep₃, hs₃⟩ := hs₂.sent hr
    exact ⟨s₃, (reaches_step hstep₁).trans ((reaches_step hstep₂).trans (reaches_step hstep₃)), hs₃⟩
  cases hw with
  | rejected hb =>
    obtain ⟨t, hstep, ht⟩ := hs.reject hb
    exact ⟨t, reaches_step hstep, ht⟩
  | enableFailed hb hok =>
    obtain ⟨u, hstep, hu⟩ := hs.accept hb
    exact ⟨_, reaches_step hstep, hu.latchStep_failed hok⟩
  | dataFailed hb hen hok =>
    obtain ⟨s₁, hstep₁, hs₁⟩ := hs.latchEnabled hb hen
    obtain ⟨t, hstep, ht⟩ := hs₁.data_failed hr hok
    exact ⟨t, (reaches_step hstep₁).trans (reaches_step hstep), ht⟩
  | loopError hd hl =>
    obtain ⟨u, hreach, hu, hk⟩ := hpolling hd
    obtain ⟨t, hloop, ht⟩ := hu.loop hr hk hl
    exact ⟨t, hreach.trans hloop, ht⟩
  | written hd hl hv =>
    obtain ⟨u, hreach, hu, hk⟩ := hpolling hd
    obtain ⟨u', hloop, hu'⟩ := hu.loop hr hk hl
    obtain ⟨t, hend, ht⟩ := WriteJob.At.verification hr hu' hv
    exact ⟨t, hreach.trans (hloop.trans hend), ht⟩

end

/-- Settles O16, by the ways the function can end. -/
theorem stepsComputeWriteFunction : Obligations.StepsComputeWriteFunction := by
  intro s r rest h a d v fuel w e hr hs hreq hi hw
  obtain ⟨t, ⟨k, hk⟩, ht⟩ := (presented_of_request hr hs hreq hi).run (writeEnds_of_writeFunction hw)
  exact ⟨k, t, hk, ht.seq, ht.rsp, ht.env, ht.params, ht.host⟩

/-! ### A loop that is not over -/

/-- While the loop is not over the block stays in `Polling` (R216). -/
theorem WriteJob.At.polls {j : WriteJob} {s : State} {fuel k : Nat} {e : Env} (hr : j.host.resetLine = false)
    (hs : j.At .polling e s) (hk : PollsCounted k s) (hp : pollFunction j.cfg j.h fuel k e = none) :
    ∀ i ≤ fuel, ∃ t e', runSteps i s = .next t ∧ j.At .polling e' t := by
  induction fuel generalizing k e s with
  | zero =>
    intro i hi
    obtain rfl := Nat.le_zero.1 hi
    exact ⟨s, e, rfl, hs⟩
  | succ fuel ih =>
    intro i hi
    cases i with
    | zero => exact ⟨s, e, rfl, hs⟩
    | succ i =>
      obtain ⟨hb, hrest⟩ := staysBusy_of_pollFunction hp
      obtain ⟨t, hstep, ht, hk'⟩ := hs.poll hr hk hb
      rw [runSteps_next hstep]
      exact ih ht hk' hrest i (Nat.le_of_succ_le_succ hi)

/-- Settles O17: three steps lead into the loop, and every poll in it keeps the block there. -/
theorem unfinishedWriteHasNoResult : Obligations.UnfinishedWriteHasNoResult := by
  intro s r rest h a d v fuel hr hs hreq hi hw k hk
  obtain ⟨hd, hp⟩ := pollFunction_of_writeFunction hw
  obtain ⟨s₁, hstep₁, hs₁⟩ := (presented_of_request hr hs hreq hi).latchEnabled hd.bounds hd.enabled
  obtain ⟨s₂, hstep₂, hs₂⟩ := hs₁.data hr hd.sent
  obtain ⟨s₃, hstep₃, hs₃, hcount⟩ := hs₂.sent hr
  rw [runSteps_next hstep₁]
  match k with
  | 0 => exact ⟨s₁, rfl, by simp [hs₁.seq], hs₁.pending⟩
  | 1 => exact ⟨s₂, runSteps_next hstep₂, by simp [hs₂.seq], hs₂.pending⟩
  | i + 2 =>
    obtain ⟨t, e, hrun, ht⟩ := hs₃.polls hr hcount hp i (by omega)
    exact ⟨t, by rw [runSteps_next hstep₂, runSteps_next hstep₃, hrun], by simp [ht.seq], ht.pending⟩

end Sys2Proof.Machine
end

section
/-! The transport calls of a WRITE, in number and order, and their answers (R164). -/

namespace Sys2Proof.Machine

/-! ### Calls made one after another -/

/-- The environment after these calls. -/
def afterCalls : Env → List Call → Env
  | e, [] => e
  | e, c :: cs => afterCalls (e.after c.h c.tx) cs

theorem answersTo_append (e : Env) (xs ys : List Call) :
    answersTo e (xs ++ ys) = answersTo e xs ++ answersTo (afterCalls e xs) ys := by
  induction xs generalizing e with
  | nil => rfl
  | cons c cs ih => simp only [List.cons_append, answersTo, afterCalls, ih]

theorem afterCalls_log (e : Env) (xs : List Call) : (afterCalls e xs).log = e.log ++ xs := by
  induction xs generalizing e with
  | nil => simp [afterCalls]
  | cons c cs ih => simp [afterCalls, ih]

theorem afterCalls_calls (e : Env) (xs : List Call) : (afterCalls e xs).calls = e.calls + xs.length := by
  induction xs generalizing e with
  | nil => rfl
  | cons c cs ih =>
    rw [afterCalls, ih, after_calls, List.length_cons]
    omega

/-- An error exit of the loop puts something on record about the device, and no call. -/
theorem noteExit_noted (o : Option ErrorKind) (e : Env) : e.Noted (noteExit o e) := by
  unfold noteExit
  split
  · exact .inr ⟨_, rfl⟩
  · exact .inr ⟨_, rfl⟩
  · exact .inl rfl

/-! ### The polls of a loop -/

/-- A loop that had sent `k` polls sends one for each answer of `bs` and a last one, answered `r`, that ends it. -/
structure LoopCalls (c : Config) (h : Handle) (k : Nat) (e : Env) (o : Option ErrorKind) (e' : Env) (bs : List Answer)
    (r : Answer) : Prop where
  answers : answersTo e (List.replicate (bs.length + 1) ⟨h, lpwpFrame⟩) = bs ++ [r]
  env : e' = noteExit o (afterCalls e (List.replicate (bs.length + 1) ⟨h, lpwpFrame⟩))
  busy : ∀ b ∈ bs, b.ok = true ∧ b.rx[1]? = some 0xFF
  exit : LoopExit c (k + bs.length) r o
  byte : r.rx[1]? = some (statusByte r.rx)
  within : ∀ n, c.pollMax = some n → k < n → k + bs.length + 1 ≤ n

theorem LoopEnds.calls {c : Config} {h : Handle} {k : Nat} {e e' : Env} {o : Option ErrorKind}
    (hl : LoopEnds c h k e o e') : ∃ bs r, LoopCalls c h k e o e' bs r := by
  induction hl with
  | last hx => exact ⟨[], _, rfl, rfl, by simp, hx, answer_byte_one _ length_lpwpFrame, fun n _ hn => hn⟩
  | @again k e e' o hb _ ih =>
    obtain ⟨bs, r, hans, henv, hbusy, hx, hbyte, hin⟩ := ih
    refine ⟨e.answer lpwpFrame :: bs, r, ?_, henv, ?_, ?_, hbyte, fun n hn _ => ?_⟩
    · rw [List.length_cons, List.replicate_succ, answersTo, hans, List.cons_append]
    · rintro b (_ | ⟨_, hb'⟩)
      · exact ⟨hb.ok, by rw [answer_byte_one _ length_lpwpFrame, (pollVerdict_busy_iff _).1 hb.busy]⟩
      · exact hbusy b hb'
    · rwa [List.length_cons, show k + (bs.length + 1) = k + 1 + bs.length by omega]
    · have := hin n hn (pollAllowed_of_not_reached hb.below n hn)
      rw [List.length_cons]
      omega

/-! ### The calls of a WRITE up to the end of its loop -/

/-- The write-enable frame, the data frame and `k` polls. -/
def writePolls (h : Handle) (a : Addr) (d : Bytes) (k : Nat) : List Call :=
  [⟨h, wrenFrame⟩, ⟨h, dataFrame a d⟩] ++ List.replicate k ⟨h, lpwpFrame⟩

/-- The read-back, if it is requested. -/
def readBack (h : Handle) (a : Addr) (d : Bytes) (v : Bool) : List Call := if v then [⟨h, readFrame a d.length⟩] else []

/-- Among the answers to the calls of a WRITE, the one to poll `i` has a byte at offset 1 that `P` holds of. -/
def Said (rs : List Answer) (i : Nat) (P : Byte → Prop) : Prop :=
  ∃ r b, rs[2 + i]? = some r ∧ r.rx[1]? = some b ∧ P b

/-- A WRITE whose loop ended with `o` in `e'` was given the answers `as` to its calls before poll `k`, none of which failed and
whose polls were answered `BUSY`, and `r` to poll `k`, the last. -/
structure WriteCalls (c : Config) (h : Handle) (a : Addr) (d : Bytes) (e : Env) (o : Option ErrorKind) (e' : Env)
    (k : Nat) (as : List Answer) (r : Answer) : Prop where
  answers : answersTo e (writePolls h a d (k + 1)) = as ++ [r]
  env : e' = noteExit o (afterCalls e (writePolls h a d (k + 1)))
  ok : ∀ q ∈ as, q.ok = true
  busy : ∀ tl : List Answer, ∀ i, i + 1 < k + 1 → Said (as ++ tl) i (· = 0xFF)
  last : ∀ (tl : List Answer) (P : Byte → Prop), P (statusByte r.rx) → Said (as ++ r :: tl) (k + 1 - 1) P
  exit : LoopExit c k r o
  within : ∀ n, c.pollMax = some n → 1 ≤ n → k + 1 ≤ n

theorem DataAccepted.calls {c : Config} {h : Handle} {a : Addr} {d : Bytes} {e e' : Env} {o : Option ErrorKind}
    (hd : DataAccepted c h a d e) (hl : LoopEnds c h 0 (e.afterData h a d) o e') :
    ∃ k as r, WriteCalls c h a d e o e' k as r := by
  obtain ⟨bs, r, hans, henv, hbusy, hx, hbyte, hin⟩ := hl.calls
  rw [Nat.zero_add] at hx
  refine ⟨bs.length, e.answer wrenFrame :: (e.after h wrenFrame).answer (dataFrame a d) :: bs, r, ?_, henv, ?_, ?_, ?_, hx,
    fun n hn h1 => by simpa using hin n hn h1⟩
  · rw [writePolls, answersTo_append]
    exact congrArg _ hans
  · simpa [hd.enabled, hd.sent] using fun b hb => (hbusy b hb).1
  · intro tl i hi
    have hi : i < bs.length := by omega
    refine ⟨bs[i], 0xFF, ?_, (hbusy _ (List.getElem_mem hi)).2, rfl⟩
    simp [Nat.add_comm 2, List.getElem?_append_left hi, hi]
  · intro tl P hP
    refine ⟨r, _, ?_, hbyte, hP⟩
    simp [Nat.add_comm 2]

section
variable {c : Config} {h : Handle} {a : Addr} {d : Bytes} {e e' : Env} {o : Option ErrorKind} {k : Nat} {as : List Answer}
  {r : Answer}

/-- The read-back is answered as after the polls: what is put on record of the device in between changes no answer. -/
theorem WriteCalls.answers_readBack (hc : WriteCalls c h a d e none e' k as r) (x : LoopEnd) (v : Bool) :
    answersTo e (writePolls h a d (k + 1) ++ readBack h a d v) =
      as ++ r :: answersTo (e'.endLoop x) (readBack h a d v) := by
  rw [answersTo_append, hc.answers, List.append_assoc, List.singleton_append, hc.env]
  cases v with
  | false => rfl
  | true => simp only [readBack, if_true, answersTo, endLoop_answer, noteExit]

theorem WriteCalls.log_calls (hc : WriteCalls c h a d e o e' k as r) :
    e'.log = e.log ++ writePolls h a d (k + 1) ∧ e'.calls = e.calls + (writePolls h a d (k + 1)).length := by
  obtain ⟨-, -, hcalls, hlog, -⟩ := (noteExit_noted o (afterCalls e (writePolls h a d (k + 1)))).same
  rw [hc.env, hlog, hcalls, afterCalls_log, afterCalls_calls]
  exact ⟨rfl, rfl⟩

@[simp] theorem length_writePolls (n : Nat) : (writePolls h a d n).length = n + 2 := by
  simp [writePolls]

end

theorem VerifyEnds.log_calls {h : Handle} {a : Addr} {p : Bytes} {e e' : Env} {v : Bool} {w : Response}
    (hv : VerifyEnds h a p e v w e') :
    e'.log = e.log ++ readBack h a p v ∧ e'.calls = e.calls + (readBack h a p v).length := by
  cases hv with
  | skipped => simp [readBack]
  | _ => exact ⟨rfl, rfl⟩

theorem WriteCalls.log_calls_verified {c : Config} {h : Handle} {a : Addr} {d : Bytes} {e e₁ e' : Env} {k : Nat}
    {as : List Answer} {r : Answer} {x : LoopEnd} {v : Bool} {w : Response} (hc : WriteCalls c h a d e none e₁ k as r)
    (hv : VerifyEnds h a d (e₁.endLoop x) v w e') :
    e'.log = e.log ++ (writePolls h a d (k + 1) ++ readBack h a d v) ∧
      e'.calls = e.calls + (writePolls h a d (k + 1) ++ readBack h a d v).length := by
  obtain ⟨hlog, hcalls⟩ := hc.log_calls
  obtain ⟨hlog', hcalls'⟩ := hv.log_calls
  constructor
  · rw [hlog', endLoop_log, hlog, List.append_assoc]
  · rw [hcalls', endLoop_calls, hcalls, List.length_append, Nat.add_assoc]

theorem length_readBack_le (h : Handle) (a : Addr) (d : Bytes) (v : Bool) : (readBack h a d v).length ≤ 1 := by
  cases v <;> simp [readBack]

/-- Settles O18, by the ways the function ends; the calls and answers up to the end of the loop are those of `WriteCalls`. -/
theorem writeCallSequence : Obligations.WriteCallSequence := by
  intro c fuel h a d v e e' w hw
  dsimp only
  cases writeEnds_of_writeFunction hw with
  | rejected hb =>
    exact ⟨[], by simp, rfl, fun _ => rfl, fun n _ _ => Nat.zero_le _, .inr (.inl ⟨rfl, rfl⟩)⟩
  | enableFailed hb hok =>
    exact ⟨[⟨h, wrenFrame⟩], rfl, rfl, by simp [hb], fun n _ _ => by simp; omega,
      .inr (.inr (.inl ⟨rfl, by simp [answersTo], ⟨_, rfl, hok⟩, .inl rfl⟩))⟩
  | dataFailed hb hen hok =>
    exact ⟨[⟨h, wrenFrame⟩, ⟨h, dataFrame a d⟩], by simp [Env.afterData], rfl, by simp [hb],
      fun n _ _ => by simp; omega,
      .inr (.inr (.inl ⟨rfl, by simpa [answersTo] using hen, ⟨_, rfl, hok⟩, .inr (.inl rfl)⟩))⟩
  | @loopError x _ hd hl =>
    obtain ⟨k, as, r, hc⟩ := hd.calls hl
    obtain ⟨hlog, hcalls⟩ := hc.log_calls
    have hlegal : 1 ≤ k + 1 ∧ ∀ n, c.pollMax = some n → 1 ≤ n → k + 1 ≤ n := ⟨by omega, hc.within⟩
    refine ⟨_, hlog, hcalls, by simp [hd.bounds], fun n hn h1 => ?_, ?_⟩
    · have := hc.within n hn h1
      rw [length_writePolls]
      omega
    rw [hc.answers]
    have hallOk (hok : r.ok = true) : ∀ q ∈ as ++ [r], q.ok = true :=
      List.forall_mem_append.2 ⟨hc.ok, by simpa using hok⟩
    cases hc.exit with
    | failed hok =>
      refine .inr (.inr (.inl ⟨rfl, ?_, ⟨r, by simp, hok⟩,
        .inr (.inr (.inl ⟨k + 1, hlegal, rfl, hc.busy [r]⟩))⟩))
      rw [List.dropLast_concat]
      exact hc.ok
    | illegal hok hv =>
      exact .inr (.inr (.inr (.inl ⟨rfl, hallOk hok, k + 1, hlegal, rfl, hc.busy [r],
        hc.last [] _ ((pollVerdict_illegal_iff _).1 hv)⟩)))
    | bound hok hv hb =>
      obtain ⟨n, hn, hle⟩ := (pollBoundReached_iff ..).1 hb
      refine .inr (.inr (.inr (.inr (.inl ⟨rfl, hallOk hok, n, hn, fun h1 => ?_⟩))))
      obtain rfl : n = k + 1 := Nat.le_antisymm hle (hc.within n hn h1)
      exact ⟨rfl, hc.busy [r], hc.last [] _ ((pollVerdict_busy_iff _).1 hv)⟩
  | @written _ e₁ _ hd hl hv =>
    obtain ⟨k, as, r, hc⟩ := hd.calls hl
    obtain ⟨hlog, hcalls⟩ := hc.log_calls_verified hv
    have hlegal : 1 ≤ k + 1 ∧ ∀ n, c.pollMax = some n → 1 ≤ n → k + 1 ≤ n := ⟨by omega, hc.within⟩
    obtain ⟨hok, hidle⟩ : r.ok = true ∧ statusByte r.rx = 0x00 := by
      cases hc.exit with
      | idle hok hv => exact ⟨hok, (pollVerdict_idle_iff _).1 hv⟩
    refine ⟨_, hlog, hcalls, by simp [hd.bounds], fun n hn h1 => ?_, ?_⟩
    · have := hc.within n hn h1
      have := length_readBack_le h a d v
      rw [List.length_append, length_writePolls]
      omega
    rw [hc.answers_readBack (.written v)]
    obtain ⟨tl, htl⟩ : ∃ tl, tl = answersTo (e₁.endLoop (.written v)) (readBack h a d v) := ⟨_, rfl⟩
    rw [← htl]
    have hbusy := hc.busy (r :: tl)
    have hlast := hc.last tl (· = 0x00) hidle
    have hallOk (hall : ∀ q ∈ tl, q.ok = true) : ∀ q ∈ as ++ r :: tl, q.ok = true :=
      List.forall_mem_append.2 ⟨hc.ok, List.forall_mem_cons.2 ⟨hok, hall⟩⟩
    cases hv with
    | skipped =>
      subst htl
      exact .inl ⟨rfl, hallOk (by simp [readBack, answersTo]), k + 1, hlegal, rfl, by simp [readBack, Nat.add_comm],
        hbusy, hlast, by simp⟩
    | failed hback =>
      obtain rfl : tl = [_] := htl
      refine .inr (.inr (.inl ⟨rfl, ?_, ⟨_, by simp, hback⟩,
        .inr (.inr (.inr ⟨rfl, k + 1, hlegal, rfl, hbusy, hlast⟩))⟩))
      simpa [or_imp, forall_and, hok] using hc.ok
    | differs hback hne =>
      obtain rfl : tl = [_] := htl
      exact .inr (.inr (.inr (.inr (.inr ⟨rfl, hallOk (by simpa using hback), rfl, k + 1, hlegal, rfl, hbusy, hlast,
        _, by simp, hne⟩))))
    | same hback heq =>
      obtain rfl : tl = [_] := htl
      exact .inl ⟨rfl, hallOk (by simpa using hback), k + 1, hlegal, rfl, by simp [readBack, Nat.add_comm],
        hbusy, hlast, fun _ => ⟨_, by simp, heq⟩⟩

end Sys2Proof.Machine
end

section
/-! What the exits of a WRITE leave in the device behind the unconstrained transport (R160). -/

namespace Sys2Proof.Machine

/-! ### What the end of the loop and the read-back show -/

section
variable {e : Env}

theorem noteExit_mem (o : Option ErrorKind) (e : Env) : (noteExit o e).dev.mem = e.dev.mem := by
  unfold noteExit
  split <;> simp only [Env.endLoop] <;> cases e.transport <;> rfl

theorem noteExit_timeout_dev (ht : e.transport = .unconstrained) :
    (noteExit (some .timeout) e).dev = { e.dev with busyLeft := Config.freeBusy (e.calls - 1) + 1, lastData := none } := by
  simp only [noteExit, Env.endLoop, ht]

theorem noteExit_protocolError_dev (ht : e.transport = .unconstrained) :
    (noteExit (some .protocolError) e).dev =
      { e.dev with
        wel := Config.freeLatch (e.calls - 1)
        busyLeft := Config.freeBusy (e.calls - 1)
        lastData := none
        latchOpen := true } := by
  simp only [noteExit, Env.endLoop, ht]

/-- What is stored follows the answer to the read-back (R53, R158; log 24). -/
theorem storedBytes_true (ht : e.transport = .unconstrained) (a : Addr) (d : Bytes) :
    storedBytes true d e =
      if (e.answer (readFrame a d.length)).ok = true then readData d.length (e.answer (readFrame a d.length)).rx else d := by
  have hanswer : e.answer (readFrame a d.length) = freeAnswer e (d.length + Config.hdrBytes) := by
    simp [Env.answer, ht, Config.hdrBytes]
  rw [hanswer]
  rfl

end

/-- The device is idle with its latch clear and holds the run `p` at `a`; outside the range memory reads as in `e₀`. -/
structure RunStored (e₀ : Env) (a : Addr) (p : Bytes) (e : Env) : Prop where
  outside : ∀ x, x < a.toNat ∨ a.toNat + p.length ≤ x → memRead e.dev.mem x = memRead e₀.dev.mem x
  inside : ∀ i < p.length, a.toNat + i < e₀.setup.devSize → a.toNat + i < 2 ^ 24 →
    some (memRead e.dev.mem (a.toNat + i)) = p[i]?
  wel : e.dev.wel = false
  idle : e.dev.busyLeft = 0

/-- Where the device has every address of the range, a run that differs from the payload reads back differently. -/
theorem RunStored.differs {e₀ e : Env} {a : Addr} {p d : Bytes} (hrun : RunStored e₀ a p e) (hlen : p.length = d.length)
    (hne : p ≠ d) (hsize : a.toNat + d.length ≤ e₀.setup.devSize) (hspace : a.toNat + d.length ≤ 2 ^ 24) :
    ∃ i < d.length, some (memRead e.dev.mem (a.toNat + i)) ≠ d[i]? := by
  by_contra hall
  push Not at hall
  refine hne (List.ext_getElem? fun i => ?_)
  by_cases hi : i < d.length
  · rw [← hall i hi, hrun.inside i (by omega) (by omega) (by omega)]
  · rw [List.getElem?_eq_none (by omega), List.getElem?_eq_none (by omega)]

section
variable {c : Config} {h : Handle} {k : Nat} {e₀ e e' : Env} {o : Option ErrorKind} {a : Addr} {d : Bytes}

theorem WriteUnderway.loopEnds (hw : WriteUnderway e₀ a d e) (hl : LoopEnds c h k e o e') :
    ∃ e₁, WriteUnderway e₀ a d e₁ ∧ e' = noteExit o e₁ := by
  induction hl with
  | last _ => exact ⟨_, hw.after_lpwpFrame h, rfl⟩
  | again _ _ ih => exact ih (hw.after_lpwpFrame h)

/-- The read-back finds the bytes in the array that were stored at the `IDLE` before it (R58, R160). -/
theorem WriteUnderway.runStored (hw : WriteUnderway e₀ a d e) (v : Bool) (n : Nat) :
    RunStored e₀ a (storedBytes v d e) ((e.endLoop (.written v)).after h (readFrame a n)) := by
  have hdev := (after_readFrame_dev (e.endLoop (.written v)) h a n).trans (hw.endLoop_written v)
  refine ⟨fun x hx => ?_, fun i hi hsize hspace => ?_, by rw [hdev], by rw [hdev]⟩ <;> rw [hdev]
  · rw [memRead_storeRun_device_outside hw.memory hx]
    exact hw.outside x (by simpa using hx)
  · rw [memRead_storeRun_device_inside hw.memory hi hsize hspace, List.getElem?_eq_getElem hi]

end

/-! ### The steps -/

/-- A step from `Polling` that presents an error met an answer that ends the loop with it. -/
theorem step_polling_error {s t : State} (hr : s.host.resetLine = false) (hq : s.blk.seq = .polling) (hrsp : s.blk.rsp = none)
    (hstep : step s = .next t) {x : ErrorKind} (hx : t.blk.rsp = some (.failure x)) :
    LoopExit s.cfg s.blk.pollCount (s.env.answer lpwpFrame) (some x) ∧
      t.env = noteExit (some x) (s.env.after s.blk.opH lpwpFrame) := by
  cases (step_poll hr hq).symm.trans hstep
  have hk : PollsCounted s.blk.pollCount s := .inr rfl
  rcases staysBusy_or_loopExit s.cfg s.blk.pollCount (s.env.answer lpwpFrame) with hb | ⟨_ | y, hexit⟩
  · rw [pollStep_stays hk hb] at hx
    simp [hrsp] at hx
  · rw [pollStep_idle hexit] at hx
    simp [hrsp] at hx
  · obtain ⟨-, hrsp', henv⟩ := pollStep_error hk hexit
    cases hrsp'.symm.trans hx
    exact ⟨hexit, henv⟩

/-- A poll that ends the loop with an error has not shown the end of a write. -/
theorem LoopExit.not_saysIdle {c : Config} {k : Nat} {a : Answer} {x : ErrorKind} (hx : LoopExit c k a (some x)) :
    saysIdle a = false := by
  cases hx with
  | failed hok => simp [saysIdle, hok]
  | illegal hok hv => simp [saysIdle, hv]
  | bound hok hv _ => simp [saysIdle, hv]

/-- A poll that ends the loop with an error has changed nothing in the device but what the answer shows about it, and a read-back
has changed nothing (R58, R160; log 9, log 24). -/
theorem device_after_sequencer_step {s t : State} (hr : s.host.resetLine = false) (ht : s.env.transport = .unconstrained)
    (hrsp : s.blk.rsp = none) (hstep : step s = .next t) :
    (s.blk.seq = .polling → t.blk.rsp = some (.failure .transportError) → t.env.dev = s.env.dev) ∧
    (s.blk.seq = .polling → t.blk.rsp = some (.failure .timeout) →
      0 < t.env.dev.busyLeft ∧ t.env.dev.lastData = none ∧ t.env.dev.mem = s.env.dev.mem) ∧
    (s.blk.seq = .polling → t.blk.rsp = some (.failure .protocolError) →
      t.env.dev.lastData = none ∧ t.env.dev.mem = s.env.dev.mem) ∧
    (s.blk.seq = .verifying → t.env.dev = s.env.dev) := by
  have hpoll {x : ErrorKind} (hq : s.blk.seq = .polling) (hx : t.blk.rsp = some (.failure x)) :
      ∃ e, e.transport = .unconstrained ∧ e.dev = s.env.dev ∧ t.env = noteExit (some x) e := by
    obtain ⟨hexit, henv⟩ := step_polling_error hr hq hrsp hstep hx
    exact ⟨s.env.after s.blk.opH lpwpFrame, ht, after_lpwpFrame_dev _ ht (.inr hexit.not_saysIdle), henv⟩
  refine ⟨fun hq hx => ?failed, fun hq hx => ?timeout, fun hq hx => ?protocol, fun hq => ?readBack⟩
  case failed =>
    obtain ⟨e, -, hdev, henv⟩ := hpoll hq hx
    rw [henv, ← hdev]
    rfl
  case timeout =>
    obtain ⟨e, hte, hdev, henv⟩ := hpoll hq hx
    rw [henv, noteExit_timeout_dev hte, ← hdev]
    exact ⟨Nat.succ_pos _, rfl, rfl⟩
  case protocol =>
    obtain ⟨e, hte, hdev, henv⟩ := hpoll hq hx
    rw [henv, noteExit_protocolError_dev hte, ← hdev]
    exact ⟨rfl, rfl⟩
  case readBack =>
    cases (step_verify hr hq).symm.trans hstep
    rw [verifyStep_env, after_readFrame_dev]

/-! ### The function -/

theorem getLast?_append_writePolls (log : List Call) (h : Handle) (a : Addr) (d : Bytes) (k : Nat) :
    (log ++ writePolls h a d (k + 1)).getLast? = some ⟨h, lpwpFrame⟩ := by
  rw [writePolls, List.replicate_succ', ← List.append_assoc, ← List.append_assoc, List.getLast?_concat]

theorem ne_readFrame {h : Handle} {tx : Bytes} {a : Addr} {n : Nat} (htx : tx.head? ≠ some 0x03) :
    (some ⟨h, tx⟩ : Option Call) ≠ some ⟨h, readFrame a n⟩ := by
  simp only [ne_eq, Option.some.injEq, Call.mk.injEq, true_and]
  rintro rfl
  exact htx (head?_readFrame a n)

theorem DataAccepted.underway {c : Config} {h : Handle} {a : Addr} {d : Bytes} {e : Env} (hd : DataAccepted c h a d e)
    (ht : e.transport = .unconstrained) (hm : Memory.wf e.dev.mem = true) : WriteUnderway e a d (e.afterData h a d) :=
  writeUnderway_of_dataFrame h a ht hm (List.ne_nil_of_length_pos ((writeOk_iff ..).1 hd.bounds).1) hd.sent

/-- Settles O52: the function by its ways to end, the write being underway from the data frame on; the steps by the error that
they present. -/
theorem deviceAfterErrorExits : Obligations.DeviceAfterErrorExits := by
  refine ⟨fun c fuel h a d v e e' x ht hm hw => ?_, fun s t hr ht hrsp hstep => device_after_sequencer_step hr ht hrsp hstep⟩
  dsimp only
  cases writeEnds_of_writeFunction hw with
  | rejected hb => exact ⟨fun _ _ => rfl, fun _ => rfl, nofun, nofun, nofun, nofun, nofun, nofun⟩
  | enableFailed hb hok =>
    have hdev := after_wrenFrame_dev_unconstrained h ht
    refine ⟨fun x _ => ?_, nofun, fun _ _ => ?_, fun _ hn => ?_, nofun, nofun, fun _ hlast => ?_, nofun⟩
    · rw [hdev]
    · rw [hdev]
      simp [hok]
    · simp at hn
    · rw [after_log, List.getLast?_concat] at hlast
      exact absurd hlast (ne_readFrame (by decide))
  | dataFailed hb hen hok =>
    have hne := List.ne_nil_of_length_pos ((writeOk_iff ..).1 hb).1
    have hdev := after_dataFrame_dev_unconstrained (e := e.after h wrenFrame) h ht a hne
    refine ⟨fun x hx => ?_, nofun, fun _ hn => ?_, fun _ _ => ?_, nofun, nofun, fun _ hlast => ?_, nofun⟩
    · rw [Env.afterData, hdev, memRead_storeRun_device_outside (wf_after e h _ hm) (by simpa [freeRun] using hx),
        (after_wrenFrame_mem e h).1]
    · simp [Env.afterData] at hn
      omega
    · rw [Env.afterData, hdev]
      simp [hok]
    · rw [Env.afterData, after_log, List.getLast?_concat] at hlast
      exact absurd hlast (ne_readFrame (by simp))
  | loopError hd hl =>
    obtain ⟨k, as, r, hc⟩ := hd.calls hl
    obtain ⟨hlog, hcalls⟩ := hc.log_calls
    obtain ⟨e₁, hw₁, rfl⟩ := (hd.underway ht hm).loopEnds hl
    rw [length_writePolls] at hcalls
    refine ⟨fun x hx => ?_, ?_, fun _ hn => ?_, fun _ hn => ?_, ?_, ?_, fun _ hlast => ?_, ?_⟩
    · rw [noteExit_mem, hw₁.outside x hx]
    · rintro rfl
      cases hc.exit
    · omega
    · omega
    · rintro rfl
      rw [noteExit_timeout_dev hw₁.transport]
      exact ⟨Nat.succ_pos _, rfl⟩
    · rintro rfl
      rw [noteExit_protocolError_dev hw₁.transport]
      exact ⟨rfl, rfl, rfl, rfl⟩
    · rw [hlog, getLast?_append_writePolls] at hlast
      exact absurd hlast (ne_readFrame (by decide))
    · rintro rfl
      cases hc.exit
  | @written _ e₁ _ hd hl hv =>
    obtain ⟨k, as, r, hc⟩ := hd.calls hl
    obtain ⟨hlog, hcalls⟩ := hc.log_calls_verified hv
    obtain ⟨e₂, hw₁, henv⟩ := (hd.underway ht hm).loopEnds hl
    obtain rfl : e₁ = e₂ := henv
    have hrun := hw₁.runStored (h := h) v d.length
    rw [List.length_append, length_writePolls] at hcalls
    cases hv with
    | failed hback =>
      rw [storedBytes_true hw₁.transport a, if_neg (by simpa using hback)] at hrun
      refine ⟨hrun.outside, nofun, fun _ hn => ?_, fun _ hn => ?_, nofun, nofun, fun _ _ => ?_, nofun⟩
      · omega
      · omega
      · exact ⟨fun i ⟨hi, hsize, hspace⟩ => hrun.inside i hi hsize hspace, hrun.wel, hrun.idle⟩
    | differs hback hne =>
      rw [storedBytes_true hw₁.transport a, if_pos (by simpa using hback)] at hrun
      rw [endLoop_answer] at hne
      obtain ⟨hlen, hbytes⟩ := readData_spec ((length_answer e₁ _).trans (length_readFrame a d.length))
      have hlast : (answersTo e (writePolls h a d (k + 1) ++ readBack h a d true)).getLast? =
          some (e₁.answer (readFrame a d.length)) := by
        rw [hc.answers_readBack (.written true)]
        simp [readBack, answersTo]
      refine ⟨fun x hx => hrun.outside x (by rwa [hlen]), nofun, nofun, nofun, nofun, nofun, nofun,
        fun _ => ⟨⟨_, _, hlog, hlast, hne, fun i ⟨hi, hsize, hspace⟩ => ?_⟩, hrun.differs hlen hne, hrun.wel, hrun.idle⟩⟩
      rw [hrun.inside i (by rwa [hlen]) hsize hspace, hbytes i hi]

end Sys2Proof.Machine
end

section
/-! Exceptions (R181 to R190): which operation can present which failure. What an operation ends with is said of the state it
leaves (`OnlyFails`), so that its one call and each way on from the answer are looked at apart. -/

namespace Sys2Proof.Machine

/-- If a failure is presented, the block is in `Idle` and the kind is one of `K`. -/
def OnlyFails (K : ErrorKind → Prop) (t : State) : Prop :=
  ∀ k, t.blk.rsp = some (.failure k) → t.blk.seq = .idle ∧ K k

section
variable {K : ErrorKind → Prop} {s : State}

theorem onlyFails_failure {k : ErrorKind} (hk : K k) : OnlyFails K (respond (.failure k) s) := by
  intro k' hrsp
  cases hrsp
  exact ⟨rfl, hk⟩

theorem onlyFails_success (o : Output) : OnlyFails K (respond (.success o) s) := nofun

theorem onlyFails_pending (hrsp : s.blk.rsp = none) : OnlyFails K s := by
  intro k hk
  simp [hrsp] at hk

/-- An exchange adds `TransportError` to what its continuation can end with (R181). -/
theorem onlyFails_exchange {h : Handle} {tx : Bytes} {k : Bytes → State → State} (hfail : K .transportError)
    (hk : ∀ rx, OnlyFails K (k rx (xfer h tx s))) : OnlyFails K (exchange h tx k s) :=
  exchange_induct (onlyFails_failure hfail) fun _ => hk _

end

/-! ### Requests -/

/-- The kinds a request can be answered with in the step that accepts it (R187). -/
def RequestFails : Instr → ErrorKind → Prop
  | .hostRead _ _ _, k | .hostWrite _ _ _ _, k => k = .transportError ∨ k = .boundsError
  | .hostRdsr _, k | .hostWren _, k | .hostWrdi _, k => k = .transportError
  | .hostPoll _, k => k = .transportError ∨ k = .protocolError
  | .illegal6, k | .illegal7, k => k = .illegalRequest
  | _, _ => False

section
variable {K : ErrorKind → Prop} {s : State} (h : Handle)

theorem onlyFails_readStep (hfail : K .transportError) (hbounds : K .boundsError) (a : Addr) (n : Nat) :
    OnlyFails K (readStep h a n s) := by
  unfold readStep
  split
  · exact onlyFails_exchange hfail fun _ => onlyFails_success _
  · exact onlyFails_failure hbounds

theorem onlyFails_pollOnce (hfail : K .transportError) (hprotocol : K .protocolError) : OnlyFails K (pollOnce h s) :=
  onlyFails_exchange hfail fun rx => by
    cases pollVerdict (statusByte rx) with
    | busy => exact onlyFails_success _
    | idle => exact onlyFails_success _
    | illegal => exact onlyFails_failure hprotocol

/-- Where its frame is transferred, the WRITE goes on and nothing is presented (R153). -/
theorem onlyFails_latchStep (hrsp : s.blk.rsp = none) (hfail : K .transportError) : OnlyFails K (latchStep s) :=
  onlyFails_exchange hfail fun _ => onlyFails_pending hrsp

end

theorem acceptedTo_onlyFails {i : Instr} {s t : State} (hrsp : s.blk.rsp = none) (ht : acceptedTo i s = some t) :
    OnlyFails (RequestFails i) t := by
  cases i with
  | hostRead h a n => cases ht; exact onlyFails_readStep h (.inl rfl) (.inr rfl) a n
  | hostWrite h a d v =>
    cases hok : writeOk s.cfg a d.length with
    | false =>
      cases (acceptedTo_hostWrite_rejected hok).symm.trans ht
      exact onlyFails_failure (.inr rfl)
    | true =>
      cases (acceptedTo_hostWrite hok).symm.trans ht
      exact onlyFails_latchStep hrsp (.inl rfl)
  | hostRdsr h => cases ht; exact onlyFails_exchange rfl fun _ => onlyFails_success _
  | hostWren h => cases ht; exact onlyFails_exchange rfl fun _ => onlyFails_success _
  | hostWrdi h => cases ht; exact onlyFails_exchange rfl fun _ => onlyFails_success _
  | hostPoll h => cases ht; exact onlyFails_pollOnce h (.inl rfl) (.inr rfl)
  | illegal6 => cases ht; exact onlyFails_failure rfl
  | illegal7 => cases ht; exact onlyFails_failure rfl
  | _ => cases ht

/-! ### The write sequencer -/

section
variable {s : State} (hrsp : s.blk.rsp = none)
include hrsp

theorem onlyFails_dataStep (a : Addr) (d : Bytes) : OnlyFails (· = .transportError) (dataStep a d s) :=
  onlyFails_exchange rfl fun _ => onlyFails_pending hrsp

theorem onlyFails_verifyStep (a : Addr) (n : Nat) :
    OnlyFails (fun k => k = .transportError ∨ k = .verificationError) (verifyStep a n s) :=
  onlyFails_exchange (.inl rfl) fun _ => by
    split
    · exact onlyFails_pending hrsp
    · exact onlyFails_failure (.inr rfl)

end

/-- The errors that end the poll loop; without `POLL_MAX` there is no `Timeout` (R156, R185). -/
theorem LoopExit.error_kind {c : Config} {n : Nat} {a : Answer} {k : ErrorKind} (hx : LoopExit c n a (some k)) :
    k = .transportError ∨ k = .protocolError ∨ k = .timeout ∧ c.pollMax ≠ none := by
  cases hx with
  | failed => exact .inl rfl
  | illegal => exact .inr (.inl rfl)
  | bound _ _ hb =>
    obtain ⟨m, hm, -⟩ := (pollBoundReached_iff ..).1 hb
    exact .inr (.inr ⟨rfl, by simp [hm]⟩)

/-! ### Obligations -/

/-- Settles O34, by the cases of a step: only an accepted request and the three steps of the sequencer that send a frame can
present a failure. -/
theorem errorKindsByOperation : Obligations.ErrorKindsByOperation := by
  intro s t k hline hrsp hstep hk
  cases step_cases hstep with
  | accept r rest i _ hq _ hreq hi ht =>
    obtain ⟨hidle, hkind⟩ := acceptedTo_onlyFails (s := withRequests rest s) hrsp ht k hk
    refine ⟨hidle, .inl ⟨r, rest, hq, hreq, ?_⟩⟩
    cases i with
    | hostRead h a n => exact .inl ⟨h, a, n, hi, hkind⟩
    | hostWrite h a d v => exact .inr (.inl ⟨h, a, d, v, hi, hkind⟩)
    | hostRdsr h => exact .inr (.inr (.inl ⟨h, hi, hkind⟩))
    | hostWren h => exact .inr (.inr (.inr (.inl ⟨h, hi, hkind⟩)))
    | hostWrdi h => exact .inr (.inr (.inr (.inr (.inl ⟨h, hi, hkind⟩))))
    | hostPoll h => exact .inr (.inr (.inr (.inr (.inr (.inl ⟨h, hi, hkind⟩)))))
    | illegal6 => exact .inr (.inr (.inr (.inr (.inr (.inr ⟨.inl hi, hkind⟩)))))
    | illegal7 => exact .inr (.inr (.inr (.inr (.inr (.inr ⟨.inr hi, hkind⟩)))))
    | _ => cases ht
  | data _ hq ht =>
    obtain ⟨hidle, hkind⟩ := onlyFails_dataStep hrsp _ _ k (ht ▸ hk)
    exact ⟨ht ▸ hidle, .inr (.inl ⟨hq, hkind⟩)⟩
  | poll _ hq ht =>
    obtain ⟨hexit, -⟩ := step_polling_error hline hq hrsp hstep hk
    obtain ⟨hidle, -⟩ := pollStep_error (.inr rfl) hexit
    exact ⟨ht ▸ hidle, .inr (.inr (.inl ⟨hq, hexit.error_kind⟩))⟩
  | verify _ hq ht =>
    obtain ⟨hidle, hkind⟩ := onlyFails_verifyStep hrsp _ _ k (ht ▸ hk)
    exact ⟨ht ▸ hidle, .inr (.inr (.inr ⟨hq, hkind⟩))⟩
  | reset hr _ => simp [hline] at hr
  | take r _ _ hpending _ => simp [hrsp] at hpending
  | wait _ _ _ _ ht => simp [ht, hrsp] at hk
  | sent _ _ ht => simp [ht, hrsp] at hk
  | done _ _ ht => simp [ht] at hk

/-- Settles O29: both selectors are accepted to `raise .illegalRequest`. -/
theorem illegalSelectorsAnswered : Obligations.IllegalSelectorsAnswered := fun _ hs =>
  ⟨exec_accepted hs rfl, exec_accepted hs rfl⟩

/-- Settles O33, by the definition of `raise`. -/
theorem raiseDoesExactlyThis : Obligations.RaiseDoesExactlyThis := fun _ _ => rfl

end Sys2Proof.Machine
end

section
/-! Reset and hazards (R211, R216, R222): the taking of a response, the reset input, and a WRITE whose polls are answered
BUSY without end. -/

namespace Sys2Proof.Machine

/-- Settles O32. -/
theorem hostTakesResponse : Obligations.HostTakesResponse := fun s hr hq =>
  ⟨fun _ hrsp => step_take hr hq hrsp, fun hrsp hreq => step_wait hr ((accepting_iff s).2 ⟨hq, hrsp⟩) hreq⟩

/-- Settles O39: the step is `resetBlock`, whatever the block was doing. -/
theorem resetAbandonsOperation : Obligations.ResetAbandonsOperation := fun s hr =>
  ⟨resetBlock s, step_reset hr, rfl, rfl, rfl, rfl, rfl, rfl, rfl⟩

/-! ### Polling without a bound -/

/-- The block is in `Polling` of a WRITE without `POLL_MAX`, and `as` are the next answers of the unconstrained transport. -/
structure PollsUnbounded (as : List Answer) (s : State) : Prop where
  released : s.host.resetLine = false
  seq : s.blk.seq = .polling
  pending : s.blk.rsp = none
  unbounded : s.cfg.pollMax = none
  transport : s.env.transport = .unconstrained
  answers : s.env.answers = as

/-- The poll that is answered `BUSY` uses the answer up and leads to `Polling` again (R156). -/
theorem PollsUnbounded.busy {s : State} {x : Byte} {more : List Answer}
    (hs : PollsUnbounded (⟨true, [x, 0xFF]⟩ :: more) s) :
    ∃ t, step s = .next t ∧ PollsUnbounded more t ∧ t.env.calls = s.env.calls + 1 := by
  have hanswer : s.env.answer lpwpFrame = ⟨true, [x, 0xFF]⟩ := answer_of_stream hs.transport hs.answers rfl
  have hstays : StaysBusy s.cfg s.blk.pollCount (s.env.answer lpwpFrame) :=
    { ok := by rw [hanswer]
      busy := by rw [hanswer]; rfl
      below := by simp [pollBoundReached, hs.unbounded] }
  have hmore : (s.env.after s.blk.opH lpwpFrame).answers = more := by
    rw [after_answers_unconstrained _ _ _ hs.transport, hs.answers, List.tail_cons]
  refine ⟨_, step_poll hs.released hs.seq, ?_⟩
  rw [pollStep_stays (.inl hs.unbounded) hstays]
  exact ⟨{ hs with seq := rfl, answers := hmore }, rfl⟩

/-- The loop goes on as long as the answers are `BUSY` (R216). -/
theorem PollsUnbounded.run {k : Nat} {s : State} {x : Byte} {more : List Answer}
    (hs : PollsUnbounded (List.replicate k ⟨true, [x, 0xFF]⟩ ++ more) s) :
    ∃ t, runSteps k s = .next t ∧ PollsUnbounded more t ∧ t.env.calls = s.env.calls + k := by
  induction k generalizing s with
  | zero => exact ⟨s, rfl, hs, rfl⟩
  | succ k ih =>
    obtain ⟨u, hstep, hu, hcall⟩ := hs.busy
    obtain ⟨t, hrun, ht, hcalls⟩ := ih hu
    exact ⟨t, (runSteps_next hstep).trans hrun, ht, by omega⟩

/-- Settles O19, by induction on the number of `BUSY` answers. -/
theorem busyAnswersKeepPolling : Obligations.BusyAnswersKeepPolling := by
  intro k x s more hr hq hrsp hmax htr hans
  obtain ⟨t, hrun, ht, hcalls⟩ := PollsUnbounded.run ⟨hr, hq, hrsp, hmax, htr, hans⟩
  exact ⟨t, hrun, ht.seq, ht.pending, ht.answers, hcalls⟩

end Sys2Proof.Machine
end
